-- ==== Sys2Proof/Word.lean ====
section
/-! DEFINITION. The word types of the block's formats (30_encoding.md R51) and nothing else. -/

namespace Sys2Proof

/-- KEY, and the 8-bit BTN layout of `btn`, `prev` and the edge mask (30_encoding.md R52, R53, R60). -/
abbrev Byte := BitVec 8

/-- PAT: one bit per segment, 0 = lit (30_encoding.md R55). -/
abbrev Pattern := BitVec 8

/-- SEL: the one-hot digit select (30_encoding.md R58). -/
abbrev Select := BitVec 4

/-- WORD: a DisplayWord (30_encoding.md R59). -/
abbrev DisplayWord := BitVec 16

/-- The counter value's register width (00_scope.md R10). -/
abbrev CounterValue := BitVec 14

/-- STIM: one FRAME line of a stimulus program (30_encoding.md R68). -/
abbrev StimWord := BitVec 32

end Sys2Proof
end

