-- ==== Sys2Proof/Syntax.lean ====
section
/-! DEFINITION. The rows of spec/opcode_table.json, one constructor each. The block has no instruction set (00_scope.md section 1):
its commands, cycle rules and functions play that part. An operand is a field the table gives the row; what a row reads
besides (a register, a port, the cycle's edge mask) it reads from the state (log 13). -/

namespace Sys2Proof

/-- CMD, the internal command code (30_encoding.md R62). QUIT is no CMD: it is the quit flag beside NONE. -/
inductive Cmd where
  | none
  | inc
  | dec
  | rst
  deriving DecidableEq, Repr

/-- The 25 rows of the opcode table, each under the rule that gives its meaning. -/
inductive Instr where
  /-- KEY_U (44_frame_control.md R115). -/
  | keyU
  /-- KEY_D (R116). -/
  | keyD
  /-- KEY_P (R117). -/
  | keyP
  /-- KEY_Q (R114). -/
  | keyQ
  /-- KEY_OTHER (R118), with the byte taken. -/
  | keyOther (keyByte : Byte)
  /-- KEY_NONE (R119). -/
  | keyNone
  /-- BTN_SAMPLE (41_edge_detector.md R82). -/
  | btnSample (btn : Byte)
  /-- READ_ERROR (41_edge_detector.md R83). -/
  | readError
  /-- BTN_UP (44_frame_control.md R120). -/
  | btnUp
  /-- BTN_DOWN (44_frame_control.md R121). -/
  | btnDown
  /-- CMD_NONE (42_counter.md R89). -/
  | cmdNone
  /-- CMD_INC (42_counter.md R86). -/
  | cmdInc
  /-- CMD_DEC (42_counter.md R87). -/
  | cmdDec
  /-- CMD_RST (42_counter.md R88). -/
  | cmdRst
  /-- RESET (70_reset_and_hazards.md R144). -/
  | reset
  /-- INIT (70_reset_and_hazards.md R147). -/
  | init
  /-- HALTED (44_frame_control.md R111). -/
  | halted
  /-- INPUT_CYCLE (44_frame_control.md R113). -/
  | inputCycle
  /-- DIGIT_WRITE (43_multiplexer.md R102). -/
  | digitWrite
  /-- DWELL_STEP (43_multiplexer.md R103). -/
  | dwellStep
  /-- DIGIT_ADVANCE (43_multiplexer.md R104). -/
  | digitAdvance
  /-- ENCODE (40_segment_encoder.md R71), with a 4-bit DIGIT. -/
  | encode (d : BitVec 4)
  /-- DETECT (41_edge_detector.md R80), with the current sample. -/
  | detect (cur : Byte)
  /-- COUNTER_UPDATE (42_counter.md R91), with the key command. -/
  | counterUpdate (kc : Cmd)
  /-- KEY_DECODE (44_frame_control.md R112), with the byte on the key port. -/
  | keyDecode (keyByte : Byte)
  deriving DecidableEq, Repr

end Sys2Proof
end

