-- ==== Sys2Proof/WellFormed.lean ====
section
/-! DEFINITION. Which instruction terms stand for a row of the opcode table: two checks, one per operand the spec bounds. -/

namespace Sys2Proof

/-- The four command bytes, the ASCII codes of 'u', 'd', 'p' and 'q' (30_encoding.md R60). -/
abbrev IsCommandKey (b : Byte) : Prop := b = 0x75 ∨ b = 0x64 ∨ b = 0x70 ∨ b = 0x71

/-- A KEY_OTHER byte is none of the four command bytes (44_frame_control.md R118). -/
abbrev KeyOtherOk (b : Byte) : Prop := ¬ IsCommandKey b

/-- An ENCODE operand is a decimal digit (30_encoding.md R54, 40_segment_encoder.md R73). -/
abbrev DigitOk (d : BitVec 4) : Prop := d.toNat < 10

/-- Well-formed instructions. Every operand without a check takes every value of its width. -/
def Instr.wellFormed : Instr → Bool
  | .keyOther b => decide (KeyOtherOk b)
  | .encode d => decide (DigitOk d)
  | .keyU | .keyD | .keyP | .keyQ | .keyNone | .btnSample _ | .readError | .btnUp | .btnDown
  | .cmdNone | .cmdInc | .cmdDec | .cmdRst | .reset | .init | .halted | .inputCycle
  | .digitWrite | .dwellStep | .digitAdvance | .detect _ | .counterUpdate _ | .keyDecode _ => true

end Sys2Proof
end

