-- ==== Sys2Proof/Decode.lean ====
section
/-! DEFINITION. The decoder and, after it, the encoder. Rows of different formats share words (0x01 is BTN_UP as an edge mask and
CMD_INC as a command code), and the two halves of a STIM word are two rows, so a word is read AT A SLOT: the place of the block
where the spec reads it (log 12). -/

namespace Sys2Proof

/-- Where the block reads a word, each with the rule that reads it. -/
inductive Slot where
  /-- The key half, bits 8:0, of a STIM word (30_encoding.md R61, R68). -/
  | frameKey
  /-- The button half, bits 24 and 23:16, of a STIM word (R68). -/
  | frameBtn
  /-- Bit 0 of an edge mask (30_encoding.md R63). -/
  | edgeUp
  /-- Bit 1 of an edge mask (30_encoding.md R63). -/
  | edgeDown
  /-- A command code at the counter (30_encoding.md R62, 42_counter.md R90). -/
  | command
  /-- The SEQ word of a cycle, for the rule that moves the sequencer (30_encoding.md R51, 44_frame_control.md R123). -/
  | cycle
  /-- The SEQ word of a cycle, for the display write that may fire beside it (43_multiplexer.md R102). -/
  | digitWrite
  /-- The digit at the Segment Encoder (40_segment_encoder.md R71). -/
  | encoder
  /-- The sample at the Edge Detector (41_edge_detector.md R80). -/
  | detector
  /-- The key command at the counter update (42_counter.md R91). -/
  | counter
  /-- The byte at the key decoder (44_frame_control.md R112). -/
  | keyDecoder
  deriving DecidableEq, Repr

/-- The width of the format read at a slot (30_encoding.md R51). -/
def Slot.width : Slot → Nat
  | .frameKey | .frameBtn => 32
  | .edgeUp | .edgeDown | .detector | .keyDecoder => 8
  | .command | .counter => 2
  | .cycle | .digitWrite => 6
  | .encoder => 4

/-- Why a word is no instruction at its slot. -/
inductive DecodeError where
  /-- A bit above the format's width, or in a field the format fixes at 0, is 1 (30_encoding.md R51, R68). -/
  | reservedBits
  /-- The edge-mask bit is 0, or the cycle writes no digit: no row fires there (30_encoding.md R63, 43_multiplexer.md R102). -/
  | noCommand
  /-- A DIGIT of 10..15 (40_segment_encoder.md R73). -/
  | digitOutOfRange
  deriving DecidableEq, Repr

/-- The CMD code (30_encoding.md R62). -/
def cmdCode : Cmd → BitVec 2
  | .none => 0b00
  | .inc => 0b01
  | .dec => 0b10
  | .rst => 0b11

/-- The command of a CMD code: the inverse of `cmdCode`. -/
def cmdOfCode (c : BitVec 2) : Cmd :=
  if c = 0b00 then .none else if c = 0b01 then .inc else if c = 0b10 then .dec else .rst

/-- The counter row of a command. -/
def cmdInstr : Cmd → Instr
  | .none => .cmdNone
  | .inc => .cmdInc
  | .dec => .cmdDec
  | .rst => .cmdRst

/-- The key row of a cycle's key ports (30_encoding.md R61): exact match on all 8 bits; without a valid byte the byte is ignored. -/
def decodeKey (valid : Bool) (b : Byte) : Instr :=
  if valid then
    if b = 0x75 then .keyU
    else if b = 0x64 then .keyD
    else if b = 0x70 then .keyP
    else if b = 0x71 then .keyQ
    else .keyOther b
  else .keyNone

/-- The button row of a cycle's button ports (30_encoding.md R68): without a good sample the bitmask is ignored. -/
def decodeBtn (valid : Bool) (b : Byte) : Instr :=
  if valid then .btnSample b else .readError

/-- SEQ, field by field (30_encoding.md R51): `rst`, `run`, `phase` (1 = DIGIT), `cnt = 0`, `cnt = DWELL_CYCLES - 1`. -/
structure CycleSelect where
  rst : Bool
  run : BitVec 2
  phase : Bool
  cntFirst : Bool
  cntLast : Bool
  deriving DecidableEq, Repr

/-- The SEQ word of its fields: bit 5 `rst`, bits 4:3 `run`, bit 2 `phase`, bit 1 `cnt = 0`, bit 0 `cnt = DWELL_CYCLES - 1`. -/
def CycleSelect.word (q : CycleSelect) : BitVec 6 :=
  BitVec.ofBool q.rst ++ q.run ++ BitVec.ofBool q.phase ++ BitVec.ofBool q.cntFirst ++ BitVec.ofBool q.cntLast

/-- The fields of a SEQ word. -/
def CycleSelect.ofWord (w : BitVec 6) : CycleSelect :=
  { rst := w.getLsbD 5, run := w.extractLsb' 3 2, phase := w.getLsbD 2, cntFirst := w.getLsbD 1, cntLast := w.getLsbD 0 }

/-- The cycle rule that moves the sequencer (44_frame_control.md R123): `rst` first, then by `run`, `phase` and the dwell count. -/
def decodeCycle (q : CycleSelect) : Instr :=
  if q.rst then .reset
  else if q.run = 0b00 then .init
  else if q.run = 0b01 then
    if q.phase then (if q.cntLast then .digitAdvance else .dwellStep) else .inputCycle
  else .halted

/-- Whether the cycle also writes a digit (43_multiplexer.md R102): the first cycle of a dwell. -/
def writesDigit (q : CycleSelect) : Bool :=
  !q.rst && decide (q.run = 0b01) && q.phase && q.cntFirst

/-- The word `w` read at a slot: total on every 32-bit word, refusing by name. A STIM word's fields 15:9 and 31:25 are 0 in every
FRAME line (30_encoding.md R68); a narrower format has no bits above its width. -/
def decode (slot : Slot) (w : BitVec 32) : Except DecodeError Instr :=
  match slot with
  | .frameKey =>
    if w &&& 0xFE00FE00 = 0 then .ok (decodeKey (w.getLsbD 8) (w.extractLsb' 0 8)) else .error .reservedBits
  | .frameBtn =>
    if w &&& 0xFE00FE00 = 0 then .ok (decodeBtn (w.getLsbD 24) (w.extractLsb' 16 8)) else .error .reservedBits
  | .edgeUp =>
    if w >>> 8 ≠ 0 then .error .reservedBits
    else if w.getLsbD 0 then .ok .btnUp else .error .noCommand
  | .edgeDown =>
    if w >>> 8 ≠ 0 then .error .reservedBits
    else if w.getLsbD 1 then .ok .btnDown else .error .noCommand
  | .command =>
    if w >>> 2 ≠ 0 then .error .reservedBits else .ok (cmdInstr (cmdOfCode (w.extractLsb' 0 2)))
  | .cycle =>
    if w >>> 6 ≠ 0 then .error .reservedBits else .ok (decodeCycle (CycleSelect.ofWord (w.extractLsb' 0 6)))
  | .digitWrite =>
    if w >>> 6 ≠ 0 then .error .reservedBits
    else if writesDigit (CycleSelect.ofWord (w.extractLsb' 0 6)) then .ok .digitWrite else .error .noCommand
  | .encoder =>
    if w >>> 4 ≠ 0 then .error .reservedBits
    else if DigitOk (w.extractLsb' 0 4) then .ok (.encode (w.extractLsb' 0 4)) else .error .digitOutOfRange
  | .detector =>
    if w >>> 8 ≠ 0 then .error .reservedBits else .ok (.detect (w.extractLsb' 0 8))
  | .counter =>
    if w >>> 2 ≠ 0 then .error .reservedBits else .ok (.counterUpdate (cmdOfCode (w.extractLsb' 0 2)))
  | .keyDecoder =>
    if w >>> 8 ≠ 0 then .error .reservedBits else .ok (.keyDecode (w.extractLsb' 0 8))

/-- The slot at which a word of the opcode table is read when only its length is known (log 12). A 32-bit word is the button half
of a STIM word, but for one that offers a key and no good sample. A 16-bit word is the key half. A byte below 4 is a command
code, the one format whose rows fix every bit; a byte below 64 is a SEQ word, read for the display write where it selects one; any
other byte is a key byte. A row without bits is the encoder's. -/
def tableSlot (nbits : Nat) (w : BitVec 32) : Slot :=
  if nbits = 0 then .encoder
  else if nbits ≤ 8 then
    if w.toNat < 4 then .command
    else if w.toNat < 64 then
      if writesDigit (CycleSelect.ofWord (w.extractLsb' 0 6)) then .digitWrite else .cycle
    else .keyDecoder
  else if nbits ≤ 16 then .frameKey
  else if !w.getLsbD 24 && w.getLsbD 8 then .frameKey
  else .frameBtn

/-- The instruction the decoder reads from a table word of `nbits` bits; the bits above are 0. -/
def decodeTableWord (nbits w : Nat) : Option Instr :=
  if w < 2 ^ nbits ∧ w < 2 ^ 32 then
    match decode (tableSlot nbits (BitVec.ofNat 32 w)) (BitVec.ofNat 32 w) with
    | .ok i => some i
    | .error _ => none
  else none

/-- The slot and the word of an instruction, from the rows' match values and fields. Bits a row leaves free are 0. -/
def encodeWord : Instr → Slot × BitVec 32
  | .keyU => (.frameKey, 0x00000175)
  | .keyD => (.frameKey, 0x00000164)
  | .keyP => (.frameKey, 0x00000170)
  | .keyQ => (.frameKey, 0x00000171)
  | .keyOther b => (.frameKey, 0x00000100 ||| b.zeroExtend 32)
  | .keyNone => (.frameKey, 0x00000000)
  | .btnSample b => (.frameBtn, 0x01000000 ||| (b.zeroExtend 32 <<< 16))
  | .readError => (.frameBtn, 0x00000000)
  | .btnUp => (.edgeUp, 0x01)
  | .btnDown => (.edgeDown, 0x02)
  | .cmdNone => (.command, 0x0)
  | .cmdInc => (.command, 0x1)
  | .cmdDec => (.command, 0x2)
  | .cmdRst => (.command, 0x3)
  | .reset => (.cycle, 0x20)
  | .init => (.cycle, 0x00)
  | .halted => (.cycle, 0x10)
  | .inputCycle => (.cycle, 0x08)
  | .digitWrite => (.digitWrite, 0x0E)
  | .dwellStep => (.cycle, 0x0C)
  | .digitAdvance => (.cycle, 0x0D)
  | .encode d => (.encoder, d.zeroExtend 32)
  | .detect cur => (.detector, cur.zeroExtend 32)
  | .counterUpdate kc => (.counter, (cmdCode kc).zeroExtend 32)
  | .keyDecode b => (.keyDecoder, b.zeroExtend 32)

end Sys2Proof
end

