-- ==== Sys2Proof/Config.lean ====
section
/-! DEFINITION. What is fixed when the block is built (10_state.md R26, R32), the input ports of one edge (10_state.md R28),
and the free values: constants without a body, about which nothing can be proved but what holds for every value. -/

namespace Sys2Proof

/-- The values on the input ports at one rising edge of `clk` (10_state.md R28). Each port is a clean 0 or 1
(70_reset_and_hazards.md R152). -/
structure Inputs where
  rst : Bool
  devOk : Bool
  keyValid : Bool
  keyByte : Byte
  btnValid : Bool
  btn : Byte
  deriving DecidableEq, Repr, Inhabited

/-- The immutable configuration (70_reset_and_hazards.md R154): `DWELL_CYCLES` (00_scope.md R6), `F_CLK` (R7), `SEG_TABLE` (R8)
and `SEL_MAP` (R9). Which configurations are accepted is `Config.Valid` of Machine/Invariant.lean. -/
structure Config where
  dwellCycles : Nat
  fClk : Nat
  segTable : Vector Pattern 10
  selMap : Vector Select 4
  deriving DecidableEq, Repr

/-- `DWELL_CYCLES - 1` of the machine at reset: OPEN in 00_scope.md R6, a free value (log 2). -/
opaque Config.dwellFree : Nat

/-- `F_CLK` of the machine at reset: OPEN in 00_scope.md R7, a free value that no rule reads. DESIGN CHOICE: a natural
number of Hz, 0 allowed and no fractions; R7 does not say which kind of number it is (log 3). -/
opaque Config.clockFree : Nat

/-- The input ports at cycle number `n` where the state lists none: the environment's choice (70_reset_and_hazards.md R155), a free
value (log 1). -/
opaque Config.environment : Nat → Inputs

end Sys2Proof
end

