-- ==== Sys2Proof/Machine/Tables.lean ====
section
/-! DEFINITION. The tables the spec fixes, and the configuration of the machine at reset. -/

namespace Sys2Proof

/-- SEG_TABLE, digits 0 to 9 (30_encoding.md R56). -/
def standardSegTable : Vector Pattern 10 :=
  #v[0xC0, 0xF9, 0xA4, 0xB0, 0x99, 0x92, 0x82, 0xF8, 0x80, 0x90]

/-- SEL_MAP, positions 0 to 3: `1 << k` (30_encoding.md R58). -/
def standardSelMap : Vector Select 4 :=
  #v[0b0001, 0b0010, 0b0100, 0b1000]

/-- The configuration of the machine at reset: the spec's two tables, and free values for the two OPEN parameters (log 2 to 5).
`DWELL_CYCLES` is at least 1, as 00_scope.md R6 asks. -/
def Config.standard : Config :=
  { dwellCycles := Config.dwellFree + 1, fClk := Config.clockFree, segTable := standardSegTable, selMap := standardSelMap }

end Sys2Proof
end

