-- ==== Sys2Proof/Machine/State.lean ====
section
/-! DEFINITION. The machine's state: the block's eight registers (10_state.md R15), its configuration, and the model's own fields. -/

namespace Sys2Proof.Machine

/-- `run`, the run state (10_state.md R18). Its code is `RunState.code` of Operands.lean. -/
inductive RunState where
  | init
  | running
  | terminated
  | failed
  deriving DecidableEq, Repr

/-- `phase`, the frame phase (10_state.md R19). -/
inductive Phase where
  | input
  | digit
  deriving DecidableEq, Repr

/-- The events a step may emit (44_frame_control.md R122). -/
inductive Event where
  /-- A key byte was taken. -/
  | keyTaken (b : Byte)
  /-- A button sample was taken, `none` on a read error. -/
  | btnSampled (m : Option Byte)
  /-- A DisplayWord transfer. -/
  | dispWrite (w : DisplayWord)
  /-- `run` became TERMINATED (code 0) or FAILED (code 1). -/
  | halt (code : Fin 2)
  deriving DecidableEq, Repr

/-- The values a cycle's rules hand on within the cycle, the `let`s of 00_scope.md R12. No register: cleared when the edge ends (log 10). -/
structure Locals where
  /-- The key command of KEY_DECODE (44_frame_control.md R112). -/
  kc : Cmd
  /-- The quit flag of KEY_DECODE (30_encoding.md R62). -/
  quit : Bool
  /-- The edge mask of DETECT (41_edge_detector.md R80). -/
  e : Byte
  /-- The output of ENCODE (40_segment_encoder.md R71). -/
  pat : Pattern
  deriving DecidableEq, Repr

/-- The locals at the start of a cycle: no command, no quit, no edge. -/
def Locals.idle : Locals := { kc := .none, quit := false, e := 0, pat := 0 }

/-- The state of the machine. `value` to `we` are the block's registers (10_state.md R16 to R23). `cfg` never changes. `stim` lists the
input ports of the coming edges, `cycle` indexes the free inputs after them, `offer` is the key byte that the keyboard source has
offered and must hold (20_memory.md R40), `trace` holds the events emitted so far, oldest first, and `loc` the values within a
cycle: the model's own (log 1, 10, 11, 19). -/
structure State where
  value : CounterValue
  prev : Byte
  run : RunState
  phase : Phase
  k : BitVec 2
  cnt : Nat
  disp : DisplayWord
  we : Bool
  cfg : Config
  stim : List Inputs
  cycle : Nat
  offer : Option Byte
  trace : List Event
  loc : Locals
  deriving DecidableEq, Repr

/-- Why the machine stops with a fault. -/
inductive Fault where
  /-- Raised by a step with `rst = 0` and by every rule but RESET, on a state outside the invariants of 10_state.md R30 (R31,
  42_counter.md R94). Safe: the spec asks for it, and no step of the block reaches such a state. -/
  | stateOutsideInvariant
  deriving DecidableEq, Repr

/-- Why the machine has no meaning for what it is given. -/
inductive Refusal where
  /-- Raised by no meaning: it would stand in exec's arm of an instruction without one. Safe. -/
  | notModelled (mnemonic : String)
  /-- Raised by a step and by every rule on a configuration the spec refuses (00_scope.md R6, R9; 40_segment_encoder.md R75). Safe:
  the spec asks for it, and the machine at reset has an accepted one. -/
  | invalidConfiguration
  /-- Raised by ENCODE of 10..15 (40_segment_encoder.md R73). Safe: the spec asks for it, and the block never produces such a digit. -/
  | digitOutOfRange
  /-- Raised by a step whose key ports withdraw an offer, which the spec gives no step (70_reset_and_hazards.md R150,
  93_implementation_defined.md I6). Safe: the spec puts it outside the contract. -/
  | offerWithdrawn
  deriving DecidableEq, Repr

/-- The outcome of a step of this machine. -/
abbrev Result := Host.Outcome State Fault Refusal

/-- The machine right after reset: RESET_STATE (70_reset_and_hazards.md R143), the configuration the block is built with, and
nothing in the model's own fields (log 22). -/
def State.reset : State :=
  { value := 0, prev := 0x00, run := .init, phase := .input, k := 0, cnt := 0, disp := 0x0000, we := false,
    cfg := Config.standard, stim := [], cycle := 0, offer := none, trace := [], loc := Locals.idle }

end Sys2Proof.Machine
end

