-- ==== Sys2Proof/Machine/Operands.lean ====
section
/-! DEFINITION. The block's combinational functions over words: codes, key decode, edge detection, counter arithmetic, digit
decomposition, segment lookup and the assembly of a DisplayWord. All values are unsigned (00_scope.md R11). -/

namespace Sys2Proof.Machine

/-- The `run` code (30_encoding.md R65). -/
def runCode : RunState → BitVec 2
  | .init => 0b00
  | .running => 0b01
  | .terminated => 0b10
  | .failed => 0b11

/-- The run state of a `run` code: the inverse of `runCode`. -/
def runOfCode (c : BitVec 2) : RunState :=
  if c = 0b00 then .init else if c = 0b01 then .running else if c = 0b10 then .terminated else .failed

/-- The `phase` code, INPUT = 0, DIGIT = 1 (30_encoding.md R65). -/
def phaseCode : Phase → Bool
  | .input => false
  | .digit => true

/-- `keydec(key_valid, key_byte)`: the key command and the quit flag (30_encoding.md R61, R62). -/
def keydec (valid : Bool) (b : Byte) : Cmd × Bool :=
  if valid then
    if b = 0x75 then (.inc, false)
    else if b = 0x64 then (.dec, false)
    else if b = 0x70 then (.rst, false)
    else if b = 0x71 then (.none, true)
    else (.none, false)
  else (.none, false)

/-- `detect(cur, prev) = cur & ~prev`, over all 8 bits (41_edge_detector.md R80). -/
def detectEdges (cur prev : Byte) : Byte := cur &&& ~~~prev

/-- `inc(v) = (v + 1) mod 10000` (42_counter.md R86). -/
def inc (v : CounterValue) : CounterValue := BitVec.ofNat 14 ((v.toNat + 1) % 10000)

/-- `dec(v) = (v + 9999) mod 10000` (42_counter.md R87). -/
def dec (v : CounterValue) : CounterValue := BitVec.ofNat 14 ((v.toNat + 9999) % 10000)

/-- `apply(c, v)` (42_counter.md R88 to R90). -/
def applyCmd (c : Cmd) (v : CounterValue) : CounterValue :=
  match c with
  | .none => v
  | .inc => inc v
  | .dec => dec v
  | .rst => 0

/-- `v2` of 42_counter.md R91 from `v1`: the UP edge, bit 0 of the edge mask (30_encoding.md R63). -/
def applyUp (e : Byte) (v : CounterValue) : CounterValue := if e.getLsbD 0 then inc v else v

/-- `v3` of 42_counter.md R91 from `v2`: the DOWN edge, bit 1 of the edge mask. -/
def applyDown (e : Byte) (v : CounterValue) : CounterValue := if e.getLsbD 1 then dec v else v

/-- The frame's counter update (42_counter.md R91): key command, then UP edge, then DOWN edge. -/
def counterUpdate (kc : Cmd) (e : Byte) (v : CounterValue) : CounterValue :=
  applyDown e (applyUp e (applyCmd kc v))

/-- The power of ten of a digit position: position 0 is the thousands (30_encoding.md R64). -/
def digitDivisor (k : BitVec 2) : Nat :=
  if k = 0 then 1000 else if k = 1 then 100 else if k = 2 then 10 else 1

/-- `digit(v, k)`, the decimal digit of `v` at position `k` (30_encoding.md R64). -/
def digit (v : CounterValue) (k : BitVec 2) : Fin 10 := Fin.ofNat 10 (v.toNat / digitDivisor k)

/-- `encode(d) = SEG_TABLE[d]` (40_segment_encoder.md R71). -/
def encodeDigit (c : Config) (d : Fin 10) : Pattern := c.segTable.get d

/-- `decode(p)`: the digit whose pattern is `p`, if any (40_segment_encoder.md R74). -/
def decodePattern (c : Config) (p : Pattern) : Option (Fin 10) :=
  (List.finRange 10).find? fun d => c.segTable.get d == p

/-- `SEL_MAP(k)` (00_scope.md R9, 30_encoding.md R58). -/
def selectOf (c : Config) (k : BitVec 2) : Select := c.selMap.get k.toFin

/-- `word(sel, pat) = (pat << 4) | sel`, bits 15:12 zero (30_encoding.md R59). -/
def displayWord (sel : Select) (pat : Pattern) : DisplayWord := (pat.zeroExtend 16 <<< 4) ||| sel.zeroExtend 16

/-- The SEL field, bits 3:0, of a DisplayWord (30_encoding.md R59). -/
def wordSel (w : DisplayWord) : Select := w.extractLsb' 0 4

/-- The PAT field, bits 11:4, of a DisplayWord. -/
def wordPat (w : DisplayWord) : Pattern := w.extractLsb' 4 8

/-- The reserved field, bits 15:12, of a DisplayWord. -/
def wordReserved (w : DisplayWord) : BitVec 4 := w.extractLsb' 12 4

/-- The four one-hot selects (30_encoding.md R58). -/
def oneHotSelects : List Select := [0b0001, 0b0010, 0b0100, 0b1000]

/-- The STIM word of an edge's key and button ports (30_encoding.md R68): a byte that is not offered and a sample that is not good
are 0 there. -/
def stimOfInputs (i : Inputs) : StimWord :=
  ((if i.btnValid then 0x01000000 ||| (i.btn.zeroExtend 32 <<< 16) else 0) : StimWord)
    ||| (if i.keyValid then 0x00000100 ||| i.keyByte.zeroExtend 32 else 0)

/-- The key and button ports of a STIM word, outside reset (30_encoding.md R67, R68). -/
def inputsOfStim (w : StimWord) : Inputs :=
  { rst := false, devOk := false, keyValid := w.getLsbD 8, keyByte := w.extractLsb' 0 8,
    btnValid := w.getLsbD 24, btn := w.extractLsb' 16 8 }

/-- What SampleButtons reports of a sample: the bitmask, or `none` where the read failed (20_memory.md R36, R38). -/
def sampleOf (i : Inputs) : Option Byte := if i.btnValid then some i.btn else none

end Sys2Proof.Machine
end

