-- ==== Sys2Proof/Machine/Flags.lean ====
section
/-! DEFINITION. The block has no condition flags (10_state.md R26). Its one-bit status is on its output ports: Moore outputs,
functions of the state alone (10_state.md R27). -/

namespace Sys2Proof.Machine

/-- The values on the output ports (10_state.md R27). -/
structure Outputs where
  keyRdy : Bool
  btnRd : Bool
  dispWord : DisplayWord
  dispWe : Bool
  halted : Bool
  exitErr : Bool
  deriving DecidableEq, Repr

/-- An INPUT cycle of a RUNNING frame (44_frame_control.md R113). -/
def State.inInput (s : State) : Bool := decide (s.run = .running) && decide (s.phase = .input)

/-- A cycle of the DIGIT phase (43_multiplexer.md R97). -/
def State.inDigit (s : State) : Bool := decide (s.run = .running) && decide (s.phase = .digit)

/-- `halted` (10_state.md R27). -/
def State.isHalted (s : State) : Bool := decide (s.run = .terminated) || decide (s.run = .failed)

/-- The output ports (10_state.md R27). -/
def State.outputs (s : State) : Outputs :=
  { keyRdy := s.inInput, btnRd := s.inInput, dispWord := s.disp, dispWe := s.we,
    halted := s.isHalted, exitErr := decide (s.run = .failed) }

/-- The input ports `j` edges from now: the listed ones, then the environment's (log 1). -/
def State.inputAt (s : State) (j : Nat) : Inputs :=
  match s.stim[j]? with
  | some i => i
  | none => Config.environment (s.cycle + j)

/-- The input ports of the coming edge (10_state.md R28). -/
def State.inputs (s : State) : Inputs := s.inputAt 0

/-- The key handshake of the coming edge: `key_valid = 1 ∧ key_rdy = 1` (20_memory.md R39), a reset edge included
(70_reset_and_hazards.md R144). -/
def State.keyHandshake (s : State) : Bool := s.inputs.keyValid && s.outputs.keyRdy

/-- The byte on the key port that the coming edge does not take: the source must hold it (20_memory.md R40, 70_reset_and_hazards.md
R145). -/
def State.untaken (s : State) : Option Byte :=
  if s.inputs.keyValid && !s.outputs.keyRdy then some s.inputs.keyByte else none

/-- Whether the key ports of the coming edge hold the offer made before it, `key_valid` and `key_byte` unchanged (20_memory.md R40,
log 19). -/
def State.offerHeld (s : State) : Bool :=
  match s.offer with
  | none => true
  | some b => s.inputs.keyValid && decide (s.inputs.keyByte = b)

/-- The key row of the coming edge's key ports: what TakeKey gives in an INPUT cycle (20_memory.md R39, 30_encoding.md R61). -/
def State.keyRow (s : State) : Instr := decodeKey s.inputs.keyValid s.inputs.keyByte

/-- The button row of the coming edge's button ports: what SampleButtons gives in an INPUT cycle (20_memory.md R36). -/
def State.btnRow (s : State) : Instr := decodeBtn s.inputs.btnValid s.inputs.btn

end Sys2Proof.Machine
end

