-- ==== Sys2Proof/Machine/Invariant.lean ====
section
/-! DEFINITION. The configurations the spec accepts, the invariants of every reachable state, and the width of the dwell counter. -/

namespace Sys2Proof

/-- `DWELL_CYCLES ≥ 1` (00_scope.md R6), SEG_TABLE injective (40_segment_encoder.md R75), SEL_MAP a bijection onto the one-hot
selects (00_scope.md R9). Any other configuration is refused. -/
abbrev Config.Valid (c : Config) : Prop :=
  1 ≤ c.dwellCycles ∧ c.segTable.toList.Nodup ∧ c.selMap.toList.Nodup ∧
    ∀ x ∈ c.selMap.toList, x ∈ Machine.oneHotSelects

/-- `CW = max(1, ceil(log2(DWELL_CYCLES)))` (00_scope.md R10). -/
def Config.cntWidth (c : Config) : Nat := max 1 (Nat.clog 2 c.dwellCycles)

/-- `FRAME_CYCLES = 1 + 4 × DWELL_CYCLES` (43_multiplexer.md R106). -/
def Config.frameCycles (c : Config) : Nat := 1 + 4 * c.dwellCycles

namespace Machine

/-- The invariants (i) to (vi) of 10_state.md R30, in its order. -/
abbrev State.Inv (s : State) : Prop :=
  s.value.toNat ≤ 9999 ∧
  s.cnt < s.cfg.dwellCycles ∧
  (s.phase = .input → s.k = 0 ∧ s.cnt = 0) ∧
  (s.run ≠ .running → s.phase = .input ∧ s.k = 0 ∧ s.cnt = 0) ∧
  (wordReserved s.disp = 0 ∧ (wordSel s.disp = 0 ∨ wordSel s.disp ∈ oneHotSelects)) ∧
  (s.run = .init → s.value = 0 ∧ s.prev = 0 ∧ s.disp = 0 ∧ s.we = false)

/-- The dwell counter as the CW-bit register it is (10_state.md R21). Under the invariant no bit is lost (log 17). -/
def State.cntBits (s : State) : BitVec s.cfg.cntWidth := BitVec.ofNat _ s.cnt

end Machine

end Sys2Proof
end

