-- ==== Sys2Proof/Machine/Ops.lean ====
section
/-! DEFINITION. The shared operations on the state, and the form every rule has. The block has no memory and no exception entry
(20_memory.md R34, 60_exceptions.md R135), so there are none of those operations. -/

namespace Sys2Proof.Machine

/-- `o`, then `f` on its next state. -/
def andThen (o : Result) (f : State → Result) : Result :=
  match o with
  | .next s => f s
  | .fault r => .fault r
  | .refused r => .refused r

/-- A rule of the block: where it fires, its effect; in a cycle where it does not, no register is loaded (00_scope.md R12, log 8). It
refuses a refused configuration and faults on a state outside the invariants (10_state.md R31, log 6). -/
def rule (s : State) (fires : Bool) (effect : State → State) : Result :=
  if s.cfg.Valid then
    if s.Inv then .next (if fires then effect s else s) else .fault .stateOutsideInvariant
  else .refused .invalidConfiguration

/-- `emit` the events, in order (44_frame_control.md R122). -/
def State.emit (s : State) (ev : List Event) : State := { s with trace := s.trace ++ ev }

/-- WriteDisplay(w): `disp <- w`, `we <- 1`, `emit DispWrite(w)` (20_memory.md R41, 43_multiplexer.md R102). -/
def State.writeDisplay (s : State) (w : DisplayWord) : State :=
  { s with disp := w, we := true, trace := s.trace ++ [.dispWrite w] }

/-- `(kc, quit) = keydec(...)` handed on in the cycle (44_frame_control.md R112). -/
def State.latchKey (s : State) (key : Cmd × Bool) : State :=
  { s with loc := { s.loc with kc := key.1, quit := key.2 } }

/-- The edge mask handed on in the cycle. -/
def State.latchEdges (s : State) (e : Byte) : State := { s with loc := { s.loc with e := e } }

/-- The output of the Segment Encoder (40_segment_encoder.md R71, R72). -/
def State.encodeAt (s : State) (d : Fin 10) : State :=
  { s with loc := { s.loc with pat := encodeDigit s.cfg d } }

/-- The counter's register load (10_state.md R16). -/
def State.loadValue (s : State) (v : CounterValue) : State := { s with value := v }

/-- UPDATE_PREV: `prev <- btn`, all 8 bits (41_edge_detector.md R82). -/
def State.loadPrev (s : State) (b : Byte) : State := { s with prev := b }

/-- A good sample: `emit BtnSampled(some btn)`, the edges against the old `prev`, then UPDATE_PREV (41_edge_detector.md R80 to R82). -/
def State.goodSample (s : State) (b : Byte) : State :=
  ((s.emit [.btnSampled (some b)]).latchEdges (detectEdges b s.prev)).loadPrev b

/-- A failed sample: `emit BtnSampled(none)`, no edges, `prev` kept (41_edge_detector.md R83). -/
def State.failedSample (s : State) : State := (s.emit [.btnSampled none]).latchEdges 0x00

/-- The sample of the cycle's button ports (44_frame_control.md R113). -/
def State.sample (s : State) : State :=
  if s.inputs.btnValid then s.goodSample s.inputs.btn else s.failedSample

/-- COUNTER_UPDATE with the cycle's edge mask (42_counter.md R91). -/
def State.updateCounter (s : State) (kc : Cmd) : State := s.loadValue (counterUpdate kc s.loc.e s.value)

/-- `phase <- DIGIT`, `k <- 0`, `cnt <- 0`, `we <- 0` (44_frame_control.md R113). -/
def State.enterDigits (s : State) : State := { s with phase := .digit, k := 0, cnt := 0, we := false }

/-- `(kc, quit)` of the cycle's key ports (44_frame_control.md R112). -/
def State.key (s : State) : Cmd × Bool := keydec s.inputs.keyValid s.inputs.keyByte

/-- The INPUT cycle of a RUNNING frame whose key decode is not QUIT (44_frame_control.md R113). -/
def State.takesInput (s : State) : Bool := s.inInput && !s.key.2

/-- INPUT_CYCLE's pseudocode (44_frame_control.md R113). -/
def State.inputCycle (s : State) : State := ((s.sample).updateCounter s.key.1).enterDigits

/-- KEY_DECODE's pseudocode (44_frame_control.md R112): an offered byte is taken, `emit KeyTaken`, and `(kc, quit)` handed on. -/
def State.takeKey (s : State) : State :=
  (if s.inputs.keyValid then s.emit [.keyTaken s.inputs.keyByte] else s).latchKey s.key

/-- The quit transition (44_frame_control.md R114): the sample is taken and not used, the blank word is written, the block halts. -/
def State.quitFrame (s : State) : State :=
  (({ s.emit [.btnSampled (sampleOf s.inputs)] with run := .terminated }).writeDisplay 0x0000).emit [.halt 0]

/-- DIGIT_WRITE's pseudocode (43_multiplexer.md R102). -/
def State.writeDigit (s : State) : State :=
  let s' := s.encodeAt (digit s.value s.k)
  s'.writeDisplay (displayWord (selectOf s.cfg s.k) s'.loc.pat)

/-- `cnt <- cnt + 1` (43_multiplexer.md R103). -/
def State.stepDwell (s : State) : State := { s with cnt := s.cnt + 1 }

/-- DIGIT_ADVANCE's pseudocode (43_multiplexer.md R104). -/
def State.advanceDigit (s : State) : State :=
  if s.k = 3 then { s with cnt := 0, k := 0, phase := .input } else { s with cnt := 0, k := s.k + 1 }

/-- INIT's pseudocode (70_reset_and_hazards.md R147); a failed device check is E1 DeviceOpenError (60_exceptions.md R128). -/
def State.startUp (s : State) : State :=
  if s.inputs.devOk then { s with run := .running } else ({ s with run := .failed }).emit [.halt 1]

/-- HALTED (44_frame_control.md R111): every register keeps its value except `we <- 0`. -/
def State.hold (s : State) : State := { s with we := false }

/-- RESET_STATE in every register (70_reset_and_hazards.md R143, R144). The configuration and the model's own fields stay; no event is
emitted. -/
def State.resetRegisters (s : State) : State :=
  { State.reset with cfg := s.cfg, stim := s.stim, cycle := s.cycle, offer := s.offer, trace := s.trace, loc := s.loc }

/-- The start of an edge: `we := 0` (44_frame_control.md R123), no locals, and the key offer that the edge does not take noted (log 19). -/
def State.beginEdge (s : State) : State := { s with we := false, offer := s.untaken, loc := Locals.idle }

/-- The end of an edge: its input ports are used up, its locals gone (log 1, 10). -/
def State.endEdge (s : State) : State := { s with stim := s.stim.tail, cycle := s.cycle + 1, loc := Locals.idle }

end Sys2Proof.Machine
end

