-- ==== Sys2Proof/Machine/Buttons.lean ====
section
/-! DEFINITION. The button rows: the sample, the Edge Detector and the two edge commands. They fire in the INPUT cycle of a RUNNING
frame whose key decode is not QUIT (41_edge_detector.md R82, R83); DETECT itself is combinational (R80). -/

namespace Sys2Proof.Machine

/-- BTN_SAMPLE (41_edge_detector.md R82): the good sample on the button ports. -/
def execBtnSample (b : Byte) (s : State) : Result :=
  rule s (s.takesInput && decide (s.btnRow = .btnSample b)) fun s => s.goodSample b

/-- READ_ERROR (41_edge_detector.md R83): no good sample on the button ports. -/
def execReadError (s : State) : Result :=
  rule s (s.takesInput && decide (s.btnRow = .readError)) State.failedSample

/-- BTN_UP (44_frame_control.md R120): `e[0] = 1`, so `v2 = inc(v1)`. -/
def execBtnUp (s : State) : Result :=
  rule s (s.takesInput && s.loc.e.getLsbD 0) fun s => s.loadValue (inc s.value)

/-- BTN_DOWN (44_frame_control.md R121): `e[1] = 1`, so `v3 = dec(v2)`. -/
def execBtnDown (s : State) : Result :=
  rule s (s.takesInput && s.loc.e.getLsbD 1) fun s => s.loadValue (dec s.value)

/-- DETECT (41_edge_detector.md R80): `e = cur & ~prev`, a local. R79 says what `cur` is in a frame; for the row alone, with an operand that
is not on the button port or with `btn_valid = 0`, the spec does not say. DESIGN CHOICE: the detector is combinational, so it
computes for any operand (log 25). The edge samples by BTN_SAMPLE and READ_ERROR, which read the ports. -/
def execDetect (cur : Byte) (s : State) : Result := rule s true fun s => s.latchEdges (detectEdges cur s.prev)

end Sys2Proof.Machine
end

