-- ==== Sys2Proof/Machine/Counter.lean ====
section
/-! DEFINITION. The Counter State Machine's rows. Only the INPUT cycle of a frame that does not quit writes `value` (10_state.md R16,
42_counter.md R90). A command acts on the value left by an earlier command of the frame (R86). DESIGN CHOICE: a row executed alone applies the command it
is given, also one that the key ports do not decode to (log 27). -/

namespace Sys2Proof.Machine

/-- CMD_NONE (42_counter.md R89): it writes nothing. -/
def execCmdNone (s : State) : Result := rule s s.takesInput fun s => s.loadValue (applyCmd .none s.value)

/-- CMD_INC (42_counter.md R86). -/
def execCmdInc (s : State) : Result := rule s s.takesInput fun s => s.loadValue (applyCmd .inc s.value)

/-- CMD_DEC (42_counter.md R87). -/
def execCmdDec (s : State) : Result := rule s s.takesInput fun s => s.loadValue (applyCmd .dec s.value)

/-- CMD_RST (42_counter.md R88). -/
def execCmdRst (s : State) : Result := rule s s.takesInput fun s => s.loadValue (applyCmd .rst s.value)

/-- COUNTER_UPDATE (42_counter.md R91), with the cycle's edge mask (log 13) and any command `kc`, on the key ports or not
(log 27). -/
def execCounterUpdate (kc : Cmd) (s : State) : Result := rule s s.takesInput fun s => s.updateCounter kc

end Sys2Proof.Machine
end

