-- ==== Sys2Proof/Machine/Encoder.lean ====
section
/-! DEFINITION. The Segment Encoder's row. -/

namespace Sys2Proof.Machine

/-- ENCODE (40_segment_encoder.md R71): combinational, in any cycle (R72). A digit of 10..15 is refused (R73). -/
def execEncode (d : BitVec 4) (s : State) : Result :=
  if h : d.toNat < 10 then rule s true fun s => s.encodeAt ⟨d.toNat, h⟩ else .refused .digitOutOfRange

end Sys2Proof.Machine
end

