-- ==== Sys2Proof/Machine/KeyCommands.lean ====
section
/-! DEFINITION. The key rows. Each is the INPUT cycle of a frame in which that key is on the key ports (44_frame_control.md R112 to
R119): the byte is taken, it decodes to a command, and INPUT_CYCLE (R113) or the quit transition (R114) applies (log 9). -/

namespace Sys2Proof.Machine

/-- KEY_U (44_frame_control.md R115). -/
def execKeyU (s : State) : Result :=
  rule s (s.inInput && decide (s.keyRow = .keyU)) fun s => s.takeKey.inputCycle

/-- KEY_D (44_frame_control.md R116). -/
def execKeyD (s : State) : Result :=
  rule s (s.inInput && decide (s.keyRow = .keyD)) fun s => s.takeKey.inputCycle

/-- KEY_P (44_frame_control.md R117). -/
def execKeyP (s : State) : Result :=
  rule s (s.inInput && decide (s.keyRow = .keyP)) fun s => s.takeKey.inputCycle

/-- KEY_Q (44_frame_control.md R114). -/
def execKeyQ (s : State) : Result :=
  rule s (s.inInput && decide (s.keyRow = .keyQ)) fun s => s.takeKey.quitFrame

/-- KEY_OTHER (44_frame_control.md R118): the byte is taken, and its InvalidInputByte has no effect. -/
def execKeyOther (b : Byte) (s : State) : Result :=
  rule s (s.inInput && decide (s.keyRow = .keyOther b)) fun s => s.takeKey.inputCycle

/-- KEY_NONE (44_frame_control.md R119). -/
def execKeyNone (s : State) : Result :=
  rule s (s.inInput && decide (s.keyRow = .keyNone)) fun s => s.takeKey.inputCycle

/-- KEY_DECODE (44_frame_control.md R112) of the byte on `key_byte`, with `key_valid` from its port (log 13). -/
def execKeyDecode (b : Byte) (s : State) : Result :=
  rule s (s.inInput && decide (s.inputs.keyByte = b)) State.takeKey

end Sys2Proof.Machine
end

