-- ==== Sys2Proof/Machine/Sequencer.lean ====
section
/-! DEFINITION. The cycle rules of the frame sequencer (44_frame_control.md R123). DESIGN CHOICE: a row executed alone does not read the
`rst` port; the edge reads it when it selects the rows (log 26). -/

namespace Sys2Proof.Machine

/-- RESET (70_reset_and_hazards.md R144): in any state, one outside the invariants too (R142, log 7). The row alone resets whatever `rst`
is; the edge selects it exactly where `rst = 1` (log 26). -/
def execReset (s : State) : Result :=
  if s.cfg.Valid then .next s.resetRegisters else .refused .invalidConfiguration

/-- INIT (70_reset_and_hazards.md R147). -/
def execInit (s : State) : Result := rule s (decide (s.run = .init)) State.startUp

/-- HALTED (44_frame_control.md R111). -/
def execHalted (s : State) : Result := rule s s.isHalted State.hold

/-- INPUT_CYCLE (44_frame_control.md R113). -/
def execInputCycle (s : State) : Result := rule s s.takesInput State.inputCycle

/-- DIGIT_WRITE (43_multiplexer.md R102). -/
def execDigitWrite (s : State) : Result := rule s (s.inDigit && decide (s.cnt = 0)) State.writeDigit

/-- DWELL_STEP (43_multiplexer.md R103). -/
def execDwellStep (s : State) : Result :=
  rule s (s.inDigit && decide (s.cnt < s.cfg.dwellCycles - 1)) State.stepDwell

/-- DIGIT_ADVANCE (43_multiplexer.md R104). -/
def execDigitAdvance (s : State) : Result :=
  rule s (s.inDigit && decide (s.cnt = s.cfg.dwellCycles - 1)) State.advanceDigit

end Sys2Proof.Machine
end

