-- ==== Sys2Proof/Machine/Dispatch.lean ====
section
/-! DEFINITION. One arm per row of the opcode table, each one call of its meaning. -/

namespace Sys2Proof.Machine

/-- The effect of a row within the current edge (log 8). -/
def exec (i : Instr) (s : State) : Host.Outcome State Fault Refusal :=
  match i with
  | .keyU => Sys2Proof.Machine.execKeyU s
  | .keyD => Sys2Proof.Machine.execKeyD s
  | .keyP => Sys2Proof.Machine.execKeyP s
  | .keyQ => Sys2Proof.Machine.execKeyQ s
  | .keyOther b => Sys2Proof.Machine.execKeyOther b s
  | .keyNone => Sys2Proof.Machine.execKeyNone s
  | .btnSample b => Sys2Proof.Machine.execBtnSample b s
  | .readError => Sys2Proof.Machine.execReadError s
  | .btnUp => Sys2Proof.Machine.execBtnUp s
  | .btnDown => Sys2Proof.Machine.execBtnDown s
  | .cmdNone => Sys2Proof.Machine.execCmdNone s
  | .cmdInc => Sys2Proof.Machine.execCmdInc s
  | .cmdDec => Sys2Proof.Machine.execCmdDec s
  | .cmdRst => Sys2Proof.Machine.execCmdRst s
  | .reset => Sys2Proof.Machine.execReset s
  | .init => Sys2Proof.Machine.execInit s
  | .halted => Sys2Proof.Machine.execHalted s
  | .inputCycle => Sys2Proof.Machine.execInputCycle s
  | .digitWrite => Sys2Proof.Machine.execDigitWrite s
  | .dwellStep => Sys2Proof.Machine.execDwellStep s
  | .digitAdvance => Sys2Proof.Machine.execDigitAdvance s
  | .encode d => Sys2Proof.Machine.execEncode d s
  | .detect cur => Sys2Proof.Machine.execDetect cur s
  | .counterUpdate kc => Sys2Proof.Machine.execCounterUpdate kc s
  | .keyDecode b => Sys2Proof.Machine.execKeyDecode b s

end Sys2Proof.Machine
end

