-- ==== Sys2Proof/Machine/Edge.lean ====
section
/-! DEFINITION. One rising edge of `clk`: the selector of the cycle, the rules it fires, their effects in order, and the placing of a
given word so that the next edge runs it. -/

namespace Sys2Proof.Machine

/-- The SEQ fields of a cycle (30_encoding.md R51): a description of the rule dispatch, not a register. -/
def State.cycleSelect (s : State) : CycleSelect :=
  { rst := s.inputs.rst, run := runCode s.run, phase := phaseCode s.phase,
    cntFirst := decide (s.cnt = 0), cntLast := decide (s.cnt = s.cfg.dwellCycles - 1) }

/-- The rules that fire in the coming cycle, in the order of 44_frame_control.md R123: the display write before the rule that moves the
sequencer; in an INPUT cycle, the key row, whose meaning is that cycle (R113, R114). -/
def State.fetch (s : State) : List Instr :=
  let main := match decodeCycle s.cycleSelect with
    | .inputCycle => s.keyRow
    | i => i
  if writesDigit s.cycleSelect then [.digitWrite, main] else [main]

/-- The effects of the rules, each on what the one before it leaves. -/
def runRules : List Instr → State → Result
  | [], s => .next s
  | i :: is, s => andThen (exec i s) (runRules is)

/-- One clock edge (44_frame_control.md R123). A refused configuration is refused, and so is an edge that finds a key offer withdrawn
(R150 of 70_reset_and_hazards.md: there is no step for it, log 19); `rst = 1` acts in any state
(70_reset_and_hazards.md R144); else a state outside the invariants faults (10_state.md R31, log 7). -/
def edge (s : State) : Result :=
  if s.cfg.Valid then
    if s.offerHeld then
      if s.inputs.rst = true ∨ s.Inv then
        andThen (runRules s.fetch s.beginEdge) fun t => .next t.endEdge
      else .fault .stateOutsideInvariant
    else .refused .offerWithdrawn
  else .refused .invalidConfiguration

/-- The same state with `i` on the ports of the coming edge, and no offer from before it. -/
def State.withInputs (s : State) (i : Inputs) : State := { s with stim := i :: s.stim.tail, offer := none }

/-- The idle ports: no reset, no key, no good sample. -/
def idleInputs : Inputs :=
  { rst := false, devOk := false, keyValid := false, keyByte := 0, btnValid := false, btn := 0 }

/-- The same state at the INPUT cycle of a RUNNING frame, with `i` on the ports. -/
def State.atInput (s : State) (i : Inputs) : State :=
  { s.withInputs i with run := .running, phase := .input, k := 0, cnt := 0 }

/-- The same state in the DIGIT phase of a RUNNING frame, at digit `k` and dwell count `cnt`, with idle ports. -/
def State.atDigit (s : State) (k : BitVec 2) (cnt : Nat) : State :=
  { s.withInputs idleInputs with run := .running, phase := .digit, k := k, cnt := cnt }

/-- The ports that offer the key of a command, and no good sample. -/
def inputsOfCmd : Cmd → Inputs
  | .none => idleInputs
  | .inc => { idleInputs with keyValid := true, keyByte := 0x75 }
  | .dec => { idleInputs with keyValid := true, keyByte := 0x64 }
  | .rst => { idleInputs with keyValid := true, keyByte := 0x70 }

/-- An INPUT cycle whose sample makes the edges `e`: `btn = e`, with those bits released in `prev`. -/
def State.atEdges (s : State) (e : Byte) : State :=
  { s.atInput { idleInputs with btnValid := true, btn := e } with
    prev := s.prev &&& ~~~e, loc := { s.loc with e := e } }

/-- The same state in the DIGIT phase with the given `cnt = 0` and `cnt = DWELL_CYCLES - 1`: the least `DWELL_CYCLES` that has such
a cycle, and the first such count. -/
def State.atDwell (s : State) (first last : Bool) : State :=
  let d := if first then (if last then 1 else 2) else (if last then 2 else 3)
  { s.atDigit 0 (if first then 0 else 1) with cfg := { s.cfg with dwellCycles := d } }

/-- The same state where the coming edge runs the row `i`, read from the word `w` (log 14). -/
def State.arrange (s : State) (w : BitVec 32) (i : Instr) : State :=
  match i with
  | .keyU | .keyD | .keyP | .keyQ | .keyOther _ | .keyNone | .btnSample _ | .readError =>
    s.atInput (inputsOfStim w)
  | .btnUp | .btnDown => s.atEdges (w.extractLsb' 0 8)
  | .cmdNone => s.atInput (inputsOfCmd .none)
  | .cmdInc => s.atInput (inputsOfCmd .inc)
  | .cmdDec => s.atInput (inputsOfCmd .dec)
  | .cmdRst => s.atInput (inputsOfCmd .rst)
  | .reset => s.withInputs { idleInputs with rst := true }
  | .init => s.resetRegisters.withInputs idleInputs
  | .halted =>
    { s.withInputs idleInputs with
      run := runOfCode (w.extractLsb' 3 2), phase := .input, k := 0, cnt := 0 }
  | .inputCycle => s.atInput idleInputs
  | .digitWrite | .dwellStep | .digitAdvance => s.atDwell (w.getLsbD 1) (w.getLsbD 0)
  | .encode d => { s.atDigit 3 0 with value := d.zeroExtend 14 }
  | .detect cur => s.atInput { idleInputs with btnValid := true, btn := cur }
  | .counterUpdate kc => s.atInput (inputsOfCmd kc)
  | .keyDecode b => s.atInput { idleInputs with keyValid := true, keyByte := b }

/-- The same state where the coming edge runs the table word `w` of `nbits` bits; unchanged where the word is no row's. -/
def State.place (s : State) (nbits w : Nat) : State :=
  match decodeTableWord nbits w with
  | some i => s.arrange (BitVec.ofNat 32 w) i
  | none => s

end Sys2Proof.Machine
end

