-- ==== Sys2Proof/Machine/Step.lean ====
section
/-! DEFINITION. The step and the placing of a table word; both are what Edge.lean says. -/

namespace Sys2Proof.Machine

/-- One model step is one clock edge (00_scope.md R3). -/
def step (s : State) : Host.Outcome State Fault Refusal := edge s

/-- The state with a table word where the coming edge reads it (log 14). -/
def State.withFetchWord (s : State) (nbits w : Nat) : State := s.place nbits w

end Sys2Proof.Machine
end

