-- ==== Sys2Proof/Machine/CycleStep.lean ====
section
/-! DEFINITION. The pseudocode of 44_frame_control.md R123, written from its text and not from the rules: what the step is measured
against. -/

namespace Sys2Proof.Machine

/-- `step(s, in)` of 44_frame_control.md R123: the registers after the edge, and the events in order. -/
def cycleStep (s : State) (i : Inputs) : State × List Event :=
  if i.rst = true then
    ({ s with value := 0, prev := 0, run := .init, phase := .input, k := 0, cnt := 0, disp := 0, we := false }, [])
  else
    let s' := { s with we := false }
    match s.run with
    | .init => if i.devOk = true then ({ s' with run := .running }, []) else ({ s' with run := .failed }, [.halt 1])
    | .terminated => (s', [])
    | .failed => (s', [])
    | .running =>
      match s.phase with
      | .input =>
        let kq := keydec i.keyValid i.keyByte
        let ev := (if i.keyValid = true then [Event.keyTaken i.keyByte] else []) ++
          [Event.btnSampled (if i.btnValid = true then some i.btn else none)]
        if kq.2 = true then
          ({ s' with run := .terminated, disp := 0x0000, we := true }, ev ++ [.dispWrite 0x0000, .halt 0])
        else
          let e := if i.btnValid = true then i.btn &&& ~~~s.prev else 0x00
          let v1 := applyCmd kq.1 s.value
          let v2 := if e.getLsbD 0 = true then inc v1 else v1
          let v3 := if e.getLsbD 1 = true then dec v2 else v2
          ({ s' with
              prev := if i.btnValid = true then i.btn else s.prev
              value := v3, phase := .digit, k := 0, cnt := 0 }, ev)
      | .digit =>
        let w := ((s.cfg.segTable.get (digit s.value s.k)).zeroExtend 16 <<< 4) ||| (s.cfg.selMap.get s.k.toFin).zeroExtend 16
        let written := if s.cnt = 0 then { s' with disp := w, we := true } else s'
        let ev := if s.cnt = 0 then [Event.dispWrite w] else []
        if s.cnt < s.cfg.dwellCycles - 1 then ({ written with cnt := s.cnt + 1 }, ev)
        else if s.k < 3 then ({ written with cnt := 0, k := s.k + 1 }, ev)
        else ({ written with cnt := 0, k := 0, phase := .input }, ev)

end Sys2Proof.Machine
end

