-- ==== Sys2Proof/Machine/Errors.lean ====
section
/-! DEFINITION. The error taxonomy (60_exceptions.md R127). No error is recorded in a register (R132) and none transfers control
(R135): each one's effect is part of the rule that meets it. This file says which errors an edge raises. -/

namespace Sys2Proof.Machine

/-- The four errors (60_exceptions.md R127). -/
inductive ErrorKind where
  | deviceOpen
  | hardwareRead
  | hardwareWrite
  | invalidInputByte
  deriving DecidableEq, Repr

/-- The codes E1 to E4 (60_exceptions.md R127). -/
def errorCode : ErrorKind → Nat
  | .deviceOpen => 1
  | .hardwareRead => 2
  | .hardwareWrite => 3
  | .invalidInputByte => 4

/-- Whether a row is KEY_OTHER: a byte outside the four command bytes (60_exceptions.md R131). -/
def isKeyOther (i : Instr) : Bool :=
  match i with
  | .keyOther _ => true
  | .keyU | .keyD | .keyP | .keyQ | .keyNone | .btnSample _ | .readError | .btnUp | .btnDown
  | .cmdNone | .cmdInc | .cmdDec | .cmdRst | .reset | .init | .halted | .inputCycle
  | .digitWrite | .dwellStep | .digitAdvance | .encode _ | .detect _ | .counterUpdate _ | .keyDecode _ => false

/-- Whether the coming edge meets an error, with the priorities of 60_exceptions.md R134: `rst` overrides all, a QUIT key overrides the
read error. The block has no input for E3 (R130). -/
def State.meets (s : State) : ErrorKind → Bool
  | .deviceOpen => !s.inputs.rst && decide (s.run = .init) && !s.inputs.devOk
  | .hardwareRead => !s.inputs.rst && s.takesInput && !s.inputs.btnValid
  | .hardwareWrite => false
  | .invalidInputByte => !s.inputs.rst && s.inInput && isKeyOther s.keyRow

/-- The errors the coming edge raises, by code. -/
def State.raises (s : State) : List ErrorKind :=
  [.deviceOpen, .hardwareRead, .hardwareWrite, .invalidInputByte].filter s.meets

end Sys2Proof.Machine
end

