-- ==== Sys2Proof/Machine/Stimulus.lean ====
section
/-! DEFINITION. The stimulus notation (30_encoding.md R67 to R69): a list of FRAME lines, each the inputs of one INPUT cycle. It is
no part of the block. -/

namespace Sys2Proof.Machine

/-- `FRAME key=<k> btn=<b>` (30_encoding.md R67): `none` is `-` for the key and `ERR` for the buttons. -/
structure FrameLine where
  key : Option Byte
  btn : Option Byte
  deriving DecidableEq, Repr

/-- A line of a stimulus program, pseudo-lines included (30_encoding.md R69). The key of KEY has the forms of R67, `none` being `-`; the
operand of PRESS and RELEASE is a byte (log 16). -/
inductive StimLine where
  | frame (f : FrameLine)
  | key (k : Option Byte)
  | idle
  | press (b : Byte)
  | release (b : Byte)
  | repeated (n : Nat) (l : StimLine)
  deriving Repr

/-- The STIM word of a FRAME line (30_encoding.md R68). -/
def stimWord (f : FrameLine) : StimWord :=
  stimOfInputs
    { rst := false, devOk := false, keyValid := f.key.isSome, keyByte := f.key.getD 0,
      btnValid := f.btn.isSome, btn := f.btn.getD 0 }

/-- The ports of the INPUT cycle of a FRAME line. -/
def frameInputs (f : FrameLine) : Inputs := inputsOfStim (stimWord f)

/-- `n` expansions of a line one after the other, each from the FRAME line before it. -/
def expandTimes (expand : FrameLine → Option (List FrameLine)) : Nat → FrameLine → Option (List FrameLine)
  | 0, _ => some []
  | n + 1, last =>
    match expand last with
    | none => none
    | some fs => (expandTimes expand n (fs.getLastD last)).map (fs ++ ·)

/-- The FRAME lines of a line, after the FRAME line `last` (30_encoding.md R69). A pseudo-line needs the `btn` of `last`: after `ERR` it
has no expansion (log 16). -/
def expandLine : StimLine → FrameLine → Option (List FrameLine)
  | .frame f, _ => some [f]
  | .key k, last => last.btn.map fun B => [{ key := k, btn := some B }]
  | .idle, last => last.btn.map fun B => [{ key := none, btn := some B }]
  | .press b, last => last.btn.map fun B => [{ key := none, btn := some (B ||| b) }]
  | .release b, last => last.btn.map fun B => [{ key := none, btn := some (B &&& ~~~b) }]
  | .repeated n l, last => expandTimes (expandLine l) n last

/-- The FRAME lines of a program after the FRAME line `last`. -/
def expandFrom : List StimLine → FrameLine → Option (List FrameLine)
  | [], _ => some []
  | l :: ls, last =>
    match expandLine l last with
    | none => none
    | some fs => (expandFrom ls (fs.getLastD last)).map (fs ++ ·)

/-- The FRAME lines of a program: before the first line `B` is 0x00 (30_encoding.md R69). -/
def expandProgram (ls : List StimLine) : Option (List FrameLine) := expandFrom ls { key := none, btn := some 0x00 }

/-- The ports of every cycle of a program: line `i` at the `i`-th INPUT cycle (30_encoding.md R67), and ports that do not matter in the
`4 × DWELL_CYCLES` cycles between (44_frame_control.md R124). DESIGN CHOICE: the lines after a line that quits keep their cycles, though
no INPUT cycle comes to apply them to (log 28). -/
def schedule (c : Config) (fs : List FrameLine) : List Inputs :=
  fs.flatMap fun f => frameInputs f :: List.replicate (4 * c.dwellCycles) (frameInputs { key := none, btn := none })

end Sys2Proof.Machine
end

