-- ==== Sys2Proof/Machine/Frame.lean ====
section
/-! DEFINITION. The frame seen as a whole (44_frame_control.md R124): the words it writes, the value and the button copy it leaves. -/

namespace Sys2Proof.Machine

/-- The DisplayWord of position `k` of a value (43_multiplexer.md R102). -/
def digitWord (c : Config) (v : CounterValue) (k : BitVec 2) : DisplayWord :=
  displayWord (selectOf c k) (encodeDigit c (digit v k))

/-- `frameWords(v)`: the four words of a frame, in order (43_multiplexer.md R108). -/
def frameWords (c : Config) (v : CounterValue) : List DisplayWord :=
  [digitWord c v 0, digitWord c v 1, digitWord c v 2, digitWord c v 3]

/-- The edge mask of a frame's sample: 0 where the read failed (41_edge_detector.md R80, R83). -/
def frameEdges (i : Inputs) (prev : Byte) : Byte := if i.btnValid then detectEdges i.btn prev else 0x00

/-- The value a frame that does not quit leaves (44_frame_control.md R124). -/
def State.frameValue (s : State) : CounterValue :=
  counterUpdate (keydec s.inputs.keyValid s.inputs.keyByte).1 (frameEdges s.inputs s.prev) s.value

/-- The button copy a frame that does not quit leaves (44_frame_control.md R124). -/
def State.framePrev (s : State) : Byte := if s.inputs.btnValid then s.inputs.btn else s.prev

/-- The DisplayWord transfers among events, in order (44_frame_control.md R122). -/
def writesOf (ev : List Event) : List DisplayWord :=
  ev.filterMap fun
    | .dispWrite w => some w
    | .keyTaken _ => none
    | .btnSampled _ => none
    | .halt _ => none

/-- The key bytes taken among events, in order. -/
def keysOf (ev : List Event) : List Byte :=
  ev.filterMap fun
    | .keyTaken b => some b
    | .dispWrite _ => none
    | .btnSampled _ => none
    | .halt _ => none

/-- The value and the button copy after one FRAME line that does not quit, from those before it (44_frame_control.md R124). -/
def afterFrame (vp : CounterValue × Byte) (f : FrameLine) : CounterValue × Byte :=
  (counterUpdate (keydec f.key.isSome (f.key.getD 0)).1 (frameEdges (frameInputs f) vp.2) vp.1, f.btn.getD vp.2)

/-- The value and the button copy after the FRAME lines of a program, none of which quits. -/
def afterFrames (v : CounterValue) (p : Byte) (fs : List FrameLine) : CounterValue × Byte := fs.foldl afterFrame (v, p)

end Sys2Proof.Machine
end

