-- ==== Sys2Proof/Machine/Sink.lean ====
section
/-! DEFINITION. The Display Sink's side of the display interface (20_memory.md R42 to R44). The sink is no part of the block; these
functions say what it does with the words the block sends. -/

namespace Sys2Proof.Machine

/-- Whether the sink acts on a word: reserved bits 0 and a select that is one-hot or 0 (20_memory.md R42, 90_conflicts.md C3). -/
def sinkAccepts (w : DisplayWord) : Bool :=
  decide (wordReserved w = 0) && (decide (wordSel w = 0) || decide (wordSel w ∈ oneHotSelects))

/-- The digit position of a select (30_encoding.md R58). -/
def positionOf (c : Config) (sel : Select) : Option (Fin 4) :=
  (List.finRange 4).find? fun k => c.selMap.get k == sel

/-- What the display shows: nothing, or a pattern at one position. -/
abbrev Shown := Option (Fin 4 × Pattern)

/-- Whether the segment of a pattern's bit is lit: a cleared bit means on (30_encoding.md R55). -/
def segmentLit (p : Pattern) (segment : Fin 8) : Bool := !p.getLsbD segment

/-- What the display shows after the sink applies a word (20_memory.md R42): one digit, nothing for a blank select, and what it
showed before for a word the sink ignores. -/
def sinkApply (c : Config) (shown : Shown) (w : DisplayWord) : Shown :=
  if sinkAccepts w then
    if wordSel w = 0 then none else (positionOf c (wordSel w)).map fun k => (k, wordPat w)
  else shown

/-- What the display shows after a transfer that the sink applies or drops (60_exceptions.md R130): which one is the argument, so a
claim over it holds for both (log 18). -/
def sinkTransfer (c : Config) (applied : Bool) (shown : Shown) (w : DisplayWord) : Shown :=
  if applied then sinkApply c shown w else shown

/-- A DisplayWord as two bytes, low byte first (20_memory.md R43). -/
def wordBytes (w : DisplayWord) : List Byte := [w.extractLsb' 0 8, w.extractLsb' 8 8]

/-- The word a byte-stream sink reads: only a whole unit of two bytes is one (20_memory.md R44). -/
def wordOfBytes : List Byte → Option DisplayWord
  | [b0, b1] => some (b1 ++ b0)
  | [] => none
  | [_] => none
  | _ :: _ :: _ :: _ => none

end Sys2Proof.Machine
end

