-- ==== Sys2Proof/Safety.lean ====
section
/-! DEFINITION. The terms the statements use: which states a rule has a meaning for, what a run is, and what the environment owes. -/

namespace Sys2Proof.Machine

/-- A state the block's rules have a meaning for: an accepted configuration, and the invariants (10_state.md R30, R31). -/
abbrev State.Ready (s : State) : Prop := s.cfg.Valid ∧ s.Inv

/-- A state an edge has a meaning for: an offer held (R150), and the invariants where RESET does not act (70_reset_and_hazards.md
R144). -/
abbrev State.CanStep (s : State) : Prop := s.cfg.Valid ∧ s.offerHeld = true ∧ (s.inputs.rst = true ∨ s.Inv)

/-- `n` edges, stopping at the first fault or refusal. -/
def runFor : Nat → State → Result
  | 0, s => .next s
  | n + 1, s => andThen (Sys2Proof.Machine.step s) (runFor n)

/-- No reset in the next `n` edges. -/
def State.NoReset (s : State) (n : Nat) : Prop := ∀ j < n, (s.inputAt j).rst = false

/-- The states that runs reach from a reset edge (10_state.md R30): the machine at reset with any accepted configuration, any inputs and
any past, and every state an edge leads to. -/
inductive Reachable : State → Prop where
  | reset (s : State) (h : s.cfg.Valid) : Reachable s.resetRegisters
  | step (s t : State) (h : Reachable s) (hs : Sys2Proof.Machine.step s = .next t) : Reachable t

/-- The keyboard source's duty over the coming edges `a` to `b - 1`, none of which takes a byte (70_reset_and_hazards.md R150, R155): an
offer stands unchanged at the edge after. A step on an offer that does not stand is refused (log 19). -/
def State.HoldsOffers (s : State) (a b : Nat) : Prop :=
  ∀ j < b, a ≤ j → (s.inputAt j).keyValid = true →
    (s.inputAt (j + 1)).keyValid = true ∧ (s.inputAt (j + 1)).keyByte = (s.inputAt j).keyByte

/-- The refresh constraint on the two OPEN parameters, `F_CLK / (1 + 4 × DWELL_CYCLES) > 60` (70_reset_and_hazards.md R157). No rule
reads it. -/
def RefreshOk (c : Config) : Prop := 60 * c.frameCycles < c.fClk

/-- What an INPUT cycle that does not quit leaves, written from 44_frame_control.md R113: `kc` is the key command, `taken` the events of
R112. -/
def State.afterInput (s : State) (kc : Cmd) (taken : List Event) : State :=
  { s with
    value := counterUpdate kc (frameEdges s.inputs s.prev) s.value
    prev := s.framePrev
    phase := .digit
    k := 0
    cnt := 0
    we := false
    trace := s.trace ++ (taken ++ [.btnSampled (sampleOf s.inputs)])
    loc := { kc := kc, quit := false, e := frameEdges s.inputs s.prev, pat := s.loc.pat } }

/-- Two sets of input ports that differ at most in the reserved button bits (20_memory.md R37). -/
def SameButReserved (i j : Inputs) : Prop := j = { i with btn := j.btn } ∧ i.btn &&& 0x03 = j.btn &&& 0x03

/-- An event without the reserved bits of a recorded sample. -/
def Event.dropReserved : Event → Event
  | .btnSampled (some m) => .btnSampled (some (m &&& 0x03))
  | .btnSampled none => .btnSampled none
  | .keyTaken b => .keyTaken b
  | .dispWrite w => .dispWrite w
  | .halt code => .halt code

/-- Two states that differ at most in reserved button bits: of `prev`, of the coming inputs, and of the samples recorded in the trace,
which have the same events in the same order. -/
def State.AgreeButReserved (s t : State) : Prop :=
  t = { s with prev := t.prev, stim := t.stim, trace := t.trace } ∧ s.prev &&& 0x03 = t.prev &&& 0x03 ∧
    s.trace.map Event.dropReserved = t.trace.map Event.dropReserved ∧ ∀ j, SameButReserved (s.inputAt j) (t.inputAt j)

end Sys2Proof.Machine
end

