-- ==== Sys2Proof/Certificates/Slice0/Obligations.lean ====
section
/-! DEFINITION. The statements for the provers, from the numbered rules of spec/. `s.Ready` is an accepted configuration and the
invariants of 10_state.md R30. A next state written as a record update says the frame: every field it does not name is unchanged. -/

open Sys2Proof Sys2Proof.Machine

/-! ### Encodings -/

/-- Every well-formed instruction is what the decoder reads from its own word, at every operand value (30_encoding.md R51, R61 to R63,
R68). -/
def Obligations.DecodeInvertsEncode : Prop :=
  ∀ i : Instr, i.wellFormed = true → decode (encodeWord i).1 (encodeWord i).2 = .ok i

/-- A few words written out from the spec's encodings (30_encoding.md R60, R62, R68; 95_test_vectors.md 2.6, 2.7). -/
def Obligations.WrittenWordsDecode : Prop :=
  decode .frameKey 0x01010175 = .ok .keyU ∧ decode .frameBtn 0x01010175 = .ok (.btnSample 0x01) ∧
  decode .frameKey 0x01020178 = .ok (.keyOther 0x78) ∧ decode .frameBtn 0x000001FF = .ok .readError ∧
  decode .command 0b10 = .ok .cmdDec ∧ decode .edgeDown 0x02 = .ok .btnDown ∧
  decode .cycle 0b001010 = .ok .inputCycle ∧ decode .digitWrite 0b001110 = .ok .digitWrite ∧
  decode .encoder 9 = .ok (.encode 9) ∧ decode .keyDecoder 0x71 = .ok (.keyDecode 0x71)

/-- The STIM word of every FRAME line, field by field (30_encoding.md R68), and what its two halves decode to: the key row of R61 and the
button row. That the two halves are two rows, read at slots of their own, is the model's choice (log 12). -/
def Obligations.StimWordFields : Prop :=
  (∀ f : FrameLine,
    (stimWord f).extractLsb' 0 8 = f.key.getD 0 ∧ (stimWord f).getLsbD 8 = f.key.isSome ∧
    (stimWord f).extractLsb' 9 7 = 0 ∧ (stimWord f).extractLsb' 16 8 = f.btn.getD 0 ∧
    (stimWord f).getLsbD 24 = f.btn.isSome ∧ (stimWord f).extractLsb' 25 7 = 0 ∧
    decode .frameKey (stimWord f) = .ok (decodeKey f.key.isSome (f.key.getD 0)) ∧
    decode .frameBtn (stimWord f) = .ok (decodeBtn f.btn.isSome (f.btn.getD 0))) ∧
  stimWord { key := some 0x75, btn := some 0x01 } = 0x01010175 ∧ stimWord { key := none, btn := none } = 0x00000000

/-- Every SEQ word selects the rows of the opcode table whose fixed bits it has (30_encoding.md R51). -/
def Obligations.CycleSelectorRows : Prop :=
  ∀ w : BitVec 6,
    (decode .cycle (w.zeroExtend 32) = .ok .reset ↔ w &&& 0x20 = 0x20) ∧
    (decode .cycle (w.zeroExtend 32) = .ok .init ↔ w &&& 0x38 = 0x00) ∧
    (decode .cycle (w.zeroExtend 32) = .ok .halted ↔ w &&& 0x30 = 0x10) ∧
    (decode .cycle (w.zeroExtend 32) = .ok .inputCycle ↔ w &&& 0x3C = 0x08) ∧
    (decode .digitWrite (w.zeroExtend 32) = .ok .digitWrite ↔ w &&& 0x3E = 0x0E) ∧
    (decode .cycle (w.zeroExtend 32) = .ok .dwellStep ↔ w &&& 0x3D = 0x0C) ∧
    (decode .cycle (w.zeroExtend 32) = .ok .digitAdvance ↔ w &&& 0x3D = 0x0D)

/-- The pseudo-lines and their expansions (30_encoding.md R69): each one's own expansion (KEY with a byte or `-`), `n` copies for REPEAT, `B` = 0x00 before the first
line, and in a program each line's expansion before that of the rest, whose `B` is the `btn` of the last FRAME line so far. -/
def Obligations.PseudoLineExpansions : Prop :=
  (∀ f last : FrameLine, expandLine (.frame f) last = some [f]) ∧
  (∀ (last : FrameLine) (k : Option Byte) (B b : Byte), last.btn = some B →
    expandLine (.key k) last = some [{ key := k, btn := some B }] ∧
    expandLine .idle last = some [{ key := none, btn := some B }] ∧
    expandLine (.press b) last = some [{ key := none, btn := some (B ||| b) }] ∧
    expandLine (.release b) last = some [{ key := none, btn := some (B &&& ~~~b) }]) ∧
  (∀ (n : Nat) (l : StimLine) (last : FrameLine),
    expandLine (.repeated n l) last = expandFrom (List.replicate n l) last) ∧
  (∀ ls : List StimLine, expandProgram ls = expandFrom ls { key := none, btn := some 0x00 }) ∧
  (∀ last : FrameLine, expandFrom [] last = some []) ∧
  (∀ (f last : FrameLine) (ls : List StimLine), expandFrom (.frame f :: ls) last = (expandFrom ls f).map (f :: ·)) ∧
  (∀ (last : FrameLine) (k : Option Byte) (B b : Byte) (ls : List StimLine), last.btn = some B →
    expandFrom (.key k :: ls) last = expandFrom (.frame { key := k, btn := some B } :: ls) last ∧
    expandFrom (.idle :: ls) last = expandFrom (.frame { key := none, btn := some B } :: ls) last ∧
    expandFrom (.press b :: ls) last = expandFrom (.frame { key := none, btn := some (B ||| b) } :: ls) last ∧
    expandFrom (.release b :: ls) last = expandFrom (.frame { key := none, btn := some (B &&& ~~~b) } :: ls) last) ∧
  (∀ (n : Nat) (l : StimLine) (ls : List StimLine) (last : FrameLine),
    expandFrom (.repeated n l :: ls) last = expandFrom (List.replicate n l ++ ls) last) ∧
  expandProgram [.press 0x01, .repeated 2 (.key (some 0x75)), .press 0x02, .release 0x01, .idle] =
    some [⟨none, some 0x01⟩, ⟨some 0x75, some 0x01⟩, ⟨some 0x75, some 0x01⟩, ⟨none, some 0x03⟩, ⟨none, some 0x02⟩, ⟨none, some 0x02⟩]

/-! ### Segment Encoder -/

/-- ENCODE of a digit: the table's pattern on the encoder's output, no register written; and R71's corners and example for the table
of 30_encoding.md R56 (40_segment_encoder.md R71). -/
def Obligations.EncodeInstruction : Prop :=
  (∀ (s : State) (d : BitVec 4) (h : d.toNat < 10), s.Ready →
    exec (.encode d) s = .next { s with loc := { s.loc with pat := s.cfg.segTable.get ⟨d.toNat, h⟩ } }) ∧
  standardSegTable.get 8 = 0x80 ∧ standardSegTable.get 1 = 0xF9 ∧ standardSegTable.get 4 = 0x99 ∧
  (∀ d : Fin 10, (standardSegTable.get d).getLsbD 7 = true) ∧
  (∀ d : Fin 10, 2 ≤ (List.finRange 8).countP (segmentLit (standardSegTable.get d))) ∧
  (List.finRange 8).countP (segmentLit (standardSegTable.get 1)) = 2

/-- ENCODE of 10..15 is refused, at the decoder and at the encoder, and no digit of a value is such an input
(40_segment_encoder.md R73). -/
def Obligations.EncoderRefusesTenToFifteen : Prop :=
  ∀ d : BitVec 4, 10 ≤ d.toNat →
    decode .encoder (d.zeroExtend 32) = .error .digitOutOfRange ∧
    (∀ s : State, exec (.encode d) s = .refused .digitOutOfRange) ∧
    ∀ (v : CounterValue) (k : BitVec 2), (digit v k).val ≠ d.toNat

/-- DECODE is the inverse of the table (40_segment_encoder.md R74). -/
def Obligations.PatternDecodeIsInverse : Prop :=
  (∀ (c : Config) (p : Pattern) (d : Fin 10), c.Valid →
    (decodePattern c p = some d ↔ c.segTable.get d = p)) ∧
  (∀ (c : Config) (p : Pattern), decodePattern c p = none ↔ ∀ d : Fin 10, c.segTable.get d ≠ p) ∧
  decodePattern Config.standard 0x99 = some 4 ∧ decodePattern Config.standard 0xFF = none ∧
  decodePattern Config.standard 0x00 = none

/-- Encoding and decoding a digit gives it back with every accepted table, and a table that is not injective is refused
(40_segment_encoder.md R75). -/
def Obligations.SegmentRoundTrip : Prop :=
  (∀ (c : Config) (d : Fin 10), c.Valid → decodePattern c (encodeDigit c d) = some d) ∧
  (standardSegTable.toList.Nodup) ∧
  ∀ s : State, ¬ s.cfg.segTable.toList.Nodup → step s = .refused .invalidConfiguration

/-- With the table of 30_encoding.md R56 no transfer of the block lights the decimal point: bit 11 of every word with a select is 1
(30_encoding.md R57). -/
def Obligations.DecimalPointNeverLit : Prop :=
  (∀ d : Fin 10, (standardSegTable.get d).getLsbD 7 = true) ∧
  ∀ s t : State, s.cfg.segTable = standardSegTable → step s = .next t → t.we = true →
    wordSel t.disp = 0 ∨ (wordPat t.disp).getLsbD 7 = true

/-! ### Counter -/

/-- CMD_INC (42_counter.md R86). That the row alone acts whatever the key ports decode to is the model's choice (log 27). -/
def Obligations.CmdIncrement : Prop :=
  (∀ s : State, s.Ready → s.takesInput = true →
    exec .cmdInc s = .next { s with value := BitVec.ofNat 14 ((s.value.toNat + 1) % 10000) }) ∧
  (∀ v : CounterValue, v.toNat ≤ 9999 →
    (inc v).toNat = (v.toNat + 1) % 10000 ∧ inc v = if v = 9999 then 0 else v + 1) ∧
  decode .command 0b01 = .ok .cmdInc ∧ (∀ b : Byte, (keydec true b).1 = .inc ↔ b = 0x75) ∧
  (∀ (e : Byte) (v : CounterValue), e.getLsbD 0 = true → applyUp e v = inc v) ∧
  inc 9999 = 0 ∧ inc 0 = 1 ∧ inc 42 = 43

/-- CMD_DEC (42_counter.md R87). That the row alone acts whatever the key ports decode to is the model's choice (log 27). -/
def Obligations.CmdDecrement : Prop :=
  (∀ s : State, s.Ready → s.takesInput = true →
    exec .cmdDec s = .next { s with value := BitVec.ofNat 14 ((s.value.toNat + 9999) % 10000) }) ∧
  (∀ v : CounterValue, v.toNat ≤ 9999 →
    (dec v).toNat = (v.toNat + 9999) % 10000 ∧ dec v = if v = 0 then 9999 else v - 1) ∧
  decode .command 0b10 = .ok .cmdDec ∧ (∀ b : Byte, (keydec true b).1 = .dec ↔ b = 0x64) ∧
  (∀ (e : Byte) (v : CounterValue), e.getLsbD 1 = true → applyDown e v = dec v) ∧
  dec 0 = 9999 ∧ dec 9999 = 9998 ∧ dec 1 = 0 ∧ dec 43 = 42

/-- CMD_RST. The third clause: the edges of any mask apply only `inc` and `dec`, so the value is put to 0 by the command RST alone, which
the key `'p'` alone gives (42_counter.md R88). That the row alone acts whatever the key ports decode to is the model's choice (log 27). -/
def Obligations.CmdResetValue : Prop :=
  (∀ s : State, s.Ready → s.takesInput = true → exec .cmdRst s = .next { s with value := 0 }) ∧
  decode .command 0b11 = .ok .cmdRst ∧ (∀ b : Byte, (keydec true b).1 = .rst ↔ b = 0x70) ∧
  (∀ (kc : Cmd) (e : Byte) (v : CounterValue),
    counterUpdate kc e v =
      let v1 := match kc with | .none => v | .inc => inc v | .dec => dec v | .rst => 0
      match e.getLsbD 0, e.getLsbD 1 with
      | false, false => v1
      | true, false => inc v1
      | false, true => dec v1
      | true, true => dec (inc v1)) ∧
  (∀ v : CounterValue, counterUpdate .rst 0x01 v = 1) ∧ applyCmd .rst 0 = 0 ∧ applyCmd .rst 7777 = 0

/-- CMD_NONE (42_counter.md R89). That the row alone acts whatever the key ports decode to is the model's choice (log 27). -/
def Obligations.CmdNoneKeepsValue : Prop :=
  (∀ s : State, s.Ready → s.takesInput = true → exec .cmdNone s = .next s) ∧
  decode .command 0b00 = .ok .cmdNone ∧ (∀ b : Byte, keydec false b = (.none, false)) ∧
  (∀ b : Byte, ¬ IsCommandKey b → keydec true b = (.none, false)) ∧
  ∀ (e : Byte) (v : CounterValue), (e.getLsbD 0 = false → applyUp e v = v) ∧ (e.getLsbD 1 = false → applyDown e v = v)

/-- Decrement is the inverse of increment on 0..9999, both ways (42_counter.md R93). -/
def Obligations.IncDecInverse : Prop :=
  ∀ v : CounterValue, v.toNat ≤ 9999 → dec (inc v) = v ∧ inc (dec v) = v

/-- COUNTER_UPDATE: key command, then UP edge, then DOWN edge; and an edge of the clock changes `value` only in the INPUT cycle of a
frame that does not quit, or by reset (42_counter.md R91). That the row alone takes any command, also one that the key ports do not
decode to, is the model's choice (log 27). -/
def Obligations.CounterUpdateInstruction : Prop :=
  (∀ (s : State) (kc : Cmd), s.Ready → s.takesInput = true →
    exec (.counterUpdate kc) s = .next { s with
      value :=
        let v1 := applyCmd kc s.value
        let v2 := if s.loc.e.getLsbD 0 = true then inc v1 else v1
        if s.loc.e.getLsbD 1 = true then dec v2 else v2 }) ∧
  ∀ s t : State, step s = .next t → s.inputs.rst = false → s.takesInput = false → t.value = s.value

/-- The sixteen rows of the net effect of one frame (42_counter.md R95). -/
def Obligations.NetEffectOfOneFrame : Prop :=
  ∀ v : CounterValue, v.toNat ≤ 9999 →
    counterUpdate .none 0x00 v = v ∧ counterUpdate .none 0x01 v = inc v ∧
    counterUpdate .none 0x02 v = dec v ∧ counterUpdate .none 0x03 v = v ∧
    counterUpdate .inc 0x00 v = inc v ∧ counterUpdate .inc 0x01 v = inc (inc v) ∧
    counterUpdate .inc 0x02 v = v ∧ counterUpdate .inc 0x03 v = inc v ∧
    counterUpdate .dec 0x00 v = dec v ∧ counterUpdate .dec 0x01 v = v ∧
    counterUpdate .dec 0x02 v = dec (dec v) ∧ counterUpdate .dec 0x03 v = dec v ∧
    counterUpdate .rst 0x00 v = 0 ∧ counterUpdate .rst 0x01 v = 1 ∧
    counterUpdate .rst 0x02 v = 9999 ∧ counterUpdate .rst 0x03 v = 0 ∧
    ∀ (kc : Cmd) (e : Byte), counterUpdate kc e v = counterUpdate kc (e &&& 0x03) v ∧
      applyUp e (applyDown e (applyCmd kc v)) = counterUpdate kc e v

/-! ### Buttons -/

/-- DETECT, with the corners and the example of 41_edge_detector.md R80. R79 fixes the operand the block gives it in the INPUT cycle; that
the row alone computes for any operand, in any cycle and with `btn_valid = 0`, is the model's choice (log 25). -/
def Obligations.DetectInstruction : Prop :=
  (∀ (s : State) (cur : Byte), s.Ready →
    exec (.detect cur) s = .next { s with loc := { s.loc with e := cur &&& ~~~s.prev } }) ∧
  (∀ (cur prev : Byte) (i : Nat), i < 8 →
    ((detectEdges cur prev).getLsbD i = true ↔ cur.getLsbD i = true ∧ prev.getLsbD i = false)) ∧
  (∀ m : Byte, detectEdges m m = 0) ∧ (∀ p : Byte, detectEdges 0x00 p = 0) ∧
  detectEdges 0xFF 0x00 = 0xFF ∧ detectEdges 0x03 0x01 = 0x02

/-- BTN_SAMPLE: all 8 bits go to `prev`, with the edges against its old value; and an edge of the clock writes `prev` only in the INPUT
cycle of a frame that does not quit and has a good sample, or by reset (41_edge_detector.md R82). -/
def Obligations.BtnSampleInstruction : Prop :=
  (∀ s : State, s.Ready → s.takesInput = true → s.inputs.btnValid = true →
    exec (.btnSample s.inputs.btn) s = .next { s with
      prev := s.inputs.btn
      trace := s.trace ++ [.btnSampled (some s.inputs.btn)]
      loc := { s.loc with e := s.inputs.btn &&& ~~~s.prev } }) ∧
  (∀ s t : State, step s = .next t → s.inputs.rst = false → s.takesInput = true → s.inputs.btnValid = true →
    t.prev = s.inputs.btn) ∧
  ∀ s t : State, step s = .next t → s.inputs.rst = false →
    (s.takesInput = false ∨ s.inputs.btnValid = false) → t.prev = s.prev

/-- READ_ERROR: no edges, `prev` kept, the frame applies only its key command, and a press still held at the next good sample counts then
(41_edge_detector.md R83). -/
def Obligations.ReadErrorInstruction : Prop :=
  (∀ s : State, s.Ready → s.takesInput = true → s.inputs.btnValid = false →
    exec .readError s = .next { s with
      trace := s.trace ++ [.btnSampled none]
      loc := { s.loc with e := 0x00 } }) ∧
  (∀ s t : State, step s = .next t → s.inputs.rst = false → s.takesInput = true → s.inputs.btnValid = false →
    t.prev = s.prev ∧ t.value = applyCmd s.key.1 s.value) ∧
  ∀ v : CounterValue, afterFrames v 0x00 [⟨none, none⟩, ⟨none, some 0x01⟩] = (inc v, 0x01)

/-- BTN_UP: where the edge mask handed on in the cycle has bit 0, `value` is incremented, else nothing; that the row alone goes by this mask
and not by the button ports is the model's reading (log 10, 13). An edge of the clock with a press of the up button applies `inc`
to `v1` before the DOWN edge, with a held one nothing, so alone it leaves `inc(v1)` or `v1`; R120's corner and example
(44_frame_control.md R120). -/
def Obligations.BtnUpInstruction : Prop :=
  (∀ s : State, s.Ready → s.takesInput = true → s.loc.e.getLsbD 0 = true →
    exec .btnUp s = .next { s with value := inc s.value }) ∧
  (∀ s : State, s.Ready → s.takesInput = true → s.loc.e.getLsbD 0 = false → exec .btnUp s = .next s) ∧
  (∀ b p : Byte, (detectEdges b p).getLsbD 0 = true ↔ b.getLsbD 0 = true ∧ p.getLsbD 0 = false) ∧
  (∀ s t : State, step s = .next t → s.inputs.rst = false → s.takesInput = true → s.inputs.btnValid = true →
    s.inputs.btn.getLsbD 0 = true →
    t.value = applyDown (s.inputs.btn &&& ~~~s.prev)
      (if s.prev.getLsbD 0 = true then applyCmd s.key.1 s.value else inc (applyCmd s.key.1 s.value))) ∧
  (∀ s t : State, step s = .next t → s.inputs.rst = false → s.takesInput = true → s.inputs.btnValid = true →
    s.inputs.btn.getLsbD 0 = true → s.inputs.btn.getLsbD 1 = false →
    t.value = if s.prev.getLsbD 0 = true then applyCmd s.key.1 s.value else inc (applyCmd s.key.1 s.value)) ∧
  decode .edgeUp 0x01 = .ok .btnUp ∧ inc 9999 = 0 ∧
  afterFrames 42 0x00 [⟨none, some 0x00⟩, ⟨none, some 0x01⟩, ⟨none, some 0x01⟩, ⟨none, some 0x00⟩] = (43, 0x00)

/-- BTN_DOWN: where the edge mask handed on in the cycle has bit 1, `value` is decremented, else nothing; that the row alone goes by this
mask and not by the button ports is the model's reading (log 10, 13). An edge of the clock with a press of the down button leaves
`dec(v2)`; R121's corners and example (44_frame_control.md R121). -/
def Obligations.BtnDownInstruction : Prop :=
  (∀ s : State, s.Ready → s.takesInput = true → s.loc.e.getLsbD 1 = true →
    exec .btnDown s = .next { s with value := dec s.value }) ∧
  (∀ s : State, s.Ready → s.takesInput = true → s.loc.e.getLsbD 1 = false → exec .btnDown s = .next s) ∧
  (∀ b p : Byte, (detectEdges b p).getLsbD 1 = true ↔ b.getLsbD 1 = true ∧ p.getLsbD 1 = false) ∧
  (∀ s t : State, step s = .next t → s.inputs.rst = false → s.takesInput = true → s.inputs.btnValid = true →
    s.inputs.btn.getLsbD 1 = true → s.prev.getLsbD 1 = false →
    t.value = dec (applyUp (s.inputs.btn &&& ~~~s.prev) (applyCmd s.key.1 s.value))) ∧
  decode .edgeDown 0x02 = .ok .btnDown ∧
  (∀ v : CounterValue, v.toNat ≤ 9999 → counterUpdate .none 0x03 v = v) ∧ dec 0 = 9999 ∧
  afterFrames 10 0x00 [⟨none, some 0x02⟩] = (9, 0x02)

/-- Presses: a button held over any number of good samples gives one edge, at the first; none between two released samples; one for each
released-to-pressed change, so n presses of the up button add n modulo 10000 and n of the down button subtract n; and a button
held at the first sample after reset gives one. The last clause says that these frames are the machine's (41_edge_detector.md R84). -/
def Obligations.HeldButtonGivesOneEdge : Prop :=
  (∀ (v : CounterValue) (n : Nat),
    afterFrames v 0x00 (⟨none, some 0x00⟩ :: List.replicate (n + 1) ⟨none, some 0x01⟩) = (inc v, 0x01) ∧
    afterFrames v 0x00 (⟨none, some 0x00⟩ :: (List.replicate (n + 1) ⟨none, some 0x01⟩ ++ [⟨none, some 0x00⟩])) = (inc v, 0x00) ∧
    afterFrames v 0x00 (⟨none, some 0x00⟩ :: List.replicate (n + 1) ⟨none, some 0x02⟩) = (dec v, 0x02) ∧
    afterFrames v 0x00 (⟨none, some 0x00⟩ :: (List.replicate (n + 1) ⟨none, some 0x02⟩ ++ [⟨none, some 0x00⟩])) = (dec v, 0x00) ∧
    afterFrames v 0x00 (List.replicate n ⟨none, some 0x00⟩) = (v, 0x00)) ∧
  (∀ (v : CounterValue) (n : Nat), v.toNat ≤ 9999 →
    (afterFrames v 0x00 (List.replicate n [⟨none, some 0x01⟩, ⟨none, some 0x00⟩]).flatten).1.toNat = (v.toNat + n) % 10000) ∧
  (∀ (v : CounterValue) (n : Nat), v.toNat ≤ 9999 →
    (afterFrames v 0x00 (List.replicate n [⟨none, some 0x02⟩, ⟨none, some 0x00⟩]).flatten).1.toNat ≤ 9999 ∧
    ((afterFrames v 0x00 (List.replicate n [⟨none, some 0x02⟩, ⟨none, some 0x00⟩]).flatten).1.toNat + n) % 10000 = v.toNat) ∧
  (∀ s : State, s.resetRegisters.prev = 0x00) ∧ afterFrames 0 0x00 [⟨none, some 0x01⟩] = (1, 0x01) ∧
  ∀ s t : State, step s = .next t → s.inputs.rst = false → s.takesInput = true →
    (t.value, t.prev) = afterFrames s.value s.prev
      [⟨if s.inputs.keyValid = true then some s.inputs.keyByte else none, if s.inputs.btnValid = true then some s.inputs.btn else none⟩]

/-! ### Key rows -/

/-- KEY_DECODE: the key command and the quit flag of the key ports, and an offered byte taken, whatever it is
(44_frame_control.md R112, 30_encoding.md R61). -/
def Obligations.KeyDecodeInstruction : Prop :=
  (∀ s : State, s.Ready → s.inInput = true →
    exec (.keyDecode s.inputs.keyByte) s = .next { s with
      trace := if s.inputs.keyValid = true then s.trace ++ [.keyTaken s.inputs.keyByte] else s.trace
      loc := { s.loc with
        kc := (keydec s.inputs.keyValid s.inputs.keyByte).1
        quit := (keydec s.inputs.keyValid s.inputs.keyByte).2 } }) ∧
  (∀ b : Byte, keydec false b = (.none, false)) ∧
  keydec true 0x75 = (.inc, false) ∧ keydec true 0x64 = (.dec, false) ∧
  keydec true 0x70 = (.rst, false) ∧ keydec true 0x71 = (.none, true) ∧
  ∀ b : Byte, ¬ IsCommandKey b → keydec true b = (.none, false)

/-- KEY_U: the INPUT cycle with INC before the button edges (44_frame_control.md R115). -/
def Obligations.KeyUInstruction : Prop :=
  (∀ s : State, s.Ready → s.inInput = true → s.inputs.keyValid = true → s.inputs.keyByte = 0x75 →
    exec .keyU s = .next (s.afterInput .inc [.keyTaken 0x75])) ∧
  counterUpdate .inc 0x00 9999 = 0 ∧ (∀ v : CounterValue, counterUpdate .inc 0x01 v = inc (inc v)) ∧
  decode .frameKey 0x00000175 = .ok .keyU ∧ keydec true 0x75 = (.inc, false) ∧
  afterFrames 0 0x00 (List.replicate 5 ⟨some 0x75, some 0x00⟩) = (5, 0x00)

/-- KEY_D: the INPUT cycle with DEC before the button edges (44_frame_control.md R116). -/
def Obligations.KeyDInstruction : Prop :=
  (∀ s : State, s.Ready → s.inInput = true → s.inputs.keyValid = true → s.inputs.keyByte = 0x64 →
    exec .keyD s = .next (s.afterInput .dec [.keyTaken 0x64])) ∧
  counterUpdate .dec 0x00 0 = 9999 ∧ (∀ v : CounterValue, counterUpdate .dec 0x02 v = dec (dec v)) ∧
  decode .frameKey 0x00000164 = .ok .keyD ∧ keydec true 0x64 = (.dec, false) ∧
  afterFrames 0 0x00 [⟨some 0x64, some 0x00⟩] = (9999, 0x00)

/-- KEY_P: the INPUT cycle with RST before the button edges (44_frame_control.md R117). -/
def Obligations.KeyPInstruction : Prop :=
  (∀ s : State, s.Ready → s.inInput = true → s.inputs.keyValid = true → s.inputs.keyByte = 0x70 →
    exec .keyP s = .next (s.afterInput .rst [.keyTaken 0x70])) ∧
  (∀ v : CounterValue, counterUpdate .rst 0x01 v = 1 ∧ counterUpdate .rst 0x02 v = 9999) ∧
  decode .frameKey 0x00000170 = .ok .keyP ∧ keydec true 0x70 = (.rst, false) ∧
  afterFrames 7777 0x00 [⟨some 0x70, some 0x00⟩] = (0, 0x00)

/-- KEY_OTHER: any other byte is taken, is no command and raises InvalidInputByte; the frame still runs its button edges
(44_frame_control.md R118). -/
def Obligations.KeyOtherInstruction : Prop :=
  (∀ s : State, s.Ready → s.inInput = true → s.inputs.keyValid = true → ¬ IsCommandKey s.inputs.keyByte →
    exec (.keyOther s.inputs.keyByte) s = .next (s.afterInput .none [.keyTaken s.inputs.keyByte])) ∧
  (∀ b : Byte, ¬ IsCommandKey b → keydec true b = (.none, false) ∧ decodeKey true b = .keyOther b) ∧
  (∀ s : State, s.inInput = true → s.inputs.rst = false → s.inputs.keyValid = true → ¬ IsCommandKey s.inputs.keyByte →
    .invalidInputByte ∈ s.raises) ∧
  (¬ IsCommandKey 0x55 ∧ ¬ IsCommandKey 0x51 ∧ ¬ IsCommandKey 0x00 ∧ ¬ IsCommandKey 0xFF) ∧
  afterFrames 3 0x00 [⟨some 0x78, some 0x00⟩] = (3, 0x00)

/-- KEY_NONE: no byte is offered, none is taken, and the frame is not delayed (44_frame_control.md R119). -/
def Obligations.KeyNoneInstruction : Prop :=
  (∀ s : State, s.Ready → s.inInput = true → s.inputs.keyValid = false →
    exec .keyNone s = .next (s.afterInput .none [])) ∧
  (∀ b : Byte, keydec false b = (.none, false) ∧ decodeKey false b = .keyNone) ∧
  afterFrames 3 0x00 [⟨none, some 0x00⟩] = (3, 0x00)

/-- KEY_Q: the byte and the sample are taken, the blank word is written, the block halts cleanly; `value`, `prev`, `phase`, `k` and `cnt`
are unchanged (44_frame_control.md R114). -/
def Obligations.KeyQInstruction : Prop :=
  ∀ s : State, s.Ready → s.inInput = true → s.inputs.keyValid = true → s.inputs.keyByte = 0x71 →
    ∃ t : State,
      t = { s with
        run := .terminated
        disp := 0x0000
        we := true
        trace := s.trace ++ [.keyTaken 0x71, .btnSampled (sampleOf s.inputs), .dispWrite 0x0000, .halt 0]
        loc := { s.loc with kc := .none, quit := true } } ∧
      exec .keyQ s = .next t ∧ t.outputs.halted = true ∧ t.outputs.exitErr = false ∧ t.outputs.keyRdy = false

/-! ### Cycle rules -/

/-- RESET: at every edge with `rst = 1`, in any state, the registers are those of RESET_STATE, no event is emitted, and a key offered in
an INPUT cycle completes its handshake, so that it stands on offer no more (70_reset_and_hazards.md R143, R144). The edge is
one whose ports hold the offer before it (R150, log 19). That the row alone resets also with `rst = 0` is the model's choice (log 26). -/
def Obligations.ResetInstruction : Prop :=
  (∀ s : State, s.cfg.Valid →
    exec .reset s = .next { s with
      value := 0, prev := 0x00, run := .init, phase := .input, k := 0, cnt := 0, disp := 0x0000, we := false }) ∧
  (∀ s : State, s.cfg.Valid → s.offerHeld = true → s.inputs.rst = true →
    step s = .next { s with
      value := 0, prev := 0x00, run := .init, phase := .input, k := 0, cnt := 0, disp := 0x0000, we := false,
      stim := s.stim.tail, cycle := s.cycle + 1, offer := s.untaken, loc := Locals.idle }) ∧
  (∀ s t : State, step s = .next t → s.inputs.rst = true →
    t.outputs = { keyRdy := false, btnRd := false, dispWord := 0x0000, dispWe := false, halted := false, exitErr := false }) ∧
  ∀ s : State, s.inInput = true → s.inputs.keyValid = true → s.keyHandshake = true ∧ s.untaken = none

/-- INIT: the device check; the next cycle is an INPUT cycle or the block has failed (70_reset_and_hazards.md R147, for `rst = 0`). That
the row alone acts also with `rst = 1` is the model's choice (log 26). -/
def Obligations.InitInstruction : Prop :=
  ∀ s : State, s.Ready → s.run = .init →
    (s.inputs.devOk = true → exec .init s = .next { s with run := .running } ∧ { s with run := .running }.inInput = true) ∧
    (s.inputs.devOk = false → exec .init s = .next { s with run := .failed, trace := s.trace ++ [.halt 1] }) ∧
    s.outputs.keyRdy = false ∧ s.outputs.btnRd = false

/-- HALTED: every register keeps its value except `we <- 0`, no byte is taken, no word is written, and the edge leads to the same halt
state (44_frame_control.md R111, for `rst = 0`). That the row alone acts also with `rst = 1` is the model's choice (log 26); the edge is
one whose ports hold the offer before it (70_reset_and_hazards.md R150, log 19). -/
def Obligations.HaltedInstruction : Prop :=
  ∀ s : State, s.Ready → s.isHalted = true →
    exec .halted s = .next { s with we := false } ∧ s.outputs.keyRdy = false ∧
    (s.inputs.rst = false → s.offerHeld = true → step s = .next { s with
      we := false, stim := s.stim.tail, cycle := s.cycle + 1, offer := s.untaken, loc := Locals.idle })

/-- INPUT_CYCLE (44_frame_control.md R113). -/
def Obligations.InputCycleInstruction : Prop :=
  ∀ s : State, s.Ready → s.inInput = true → (keydec s.inputs.keyValid s.inputs.keyByte).2 = false →
    exec .inputCycle s = .next { s with
      value := counterUpdate (keydec s.inputs.keyValid s.inputs.keyByte).1
        (if s.inputs.btnValid = true then s.inputs.btn &&& ~~~s.prev else 0x00) s.value
      prev := if s.inputs.btnValid = true then s.inputs.btn else s.prev
      phase := .digit
      k := 0
      cnt := 0
      we := false
      trace := s.trace ++ [.btnSampled (if s.inputs.btnValid = true then some s.inputs.btn else none)]
      loc := { s.loc with e := if s.inputs.btnValid = true then s.inputs.btn &&& ~~~s.prev else 0x00 } }

/-- DIGIT_WRITE, with R102's corners and example (43_multiplexer.md R102). -/
def Obligations.DigitWriteInstruction : Prop :=
  (∀ s : State, s.Ready → s.inDigit = true → s.cnt = 0 →
    exec .digitWrite s = .next { s with
      disp := ((s.cfg.segTable.get (digit s.value s.k)).zeroExtend 16 <<< 4) ||| (s.cfg.selMap.get s.k.toFin).zeroExtend 16
      we := true
      trace := s.trace ++ [.dispWrite
        (((s.cfg.segTable.get (digit s.value s.k)).zeroExtend 16 <<< 4) ||| (s.cfg.selMap.get s.k.toFin).zeroExtend 16)]
      loc := { s.loc with pat := s.cfg.segTable.get (digit s.value s.k) } }) ∧
  frameWords Config.standard 0 = [0x0C01, 0x0C02, 0x0C04, 0x0C08] ∧
  (∀ s : State, s.Ready → s.inDigit = true → s.cfg.dwellCycles = 1 → s.inputs.rst = false → .digitWrite ∈ s.fetch) ∧
  digitWord Config.standard 1234 0 = 0x0F91

/-- DWELL_STEP, and the cycle in which it fires beside DIGIT_WRITE (43_multiplexer.md R103). -/
def Obligations.DwellStepInstruction : Prop :=
  (∀ s : State, s.Ready → s.inDigit = true → s.cnt < s.cfg.dwellCycles - 1 →
    exec .dwellStep s = .next { s with cnt := s.cnt + 1 }) ∧
  ∀ s : State, s.Ready → s.inDigit = true → s.inputs.rst = false → s.cnt < s.cfg.dwellCycles - 1 →
    s.fetch = if s.cnt = 0 then [.digitWrite, .dwellStep] else [.dwellStep]

/-- DIGIT_ADVANCE, and the cycle in which it fires beside DIGIT_WRITE (43_multiplexer.md R104). -/
def Obligations.DigitAdvanceInstruction : Prop :=
  (∀ s : State, s.Ready → s.inDigit = true → s.cnt = s.cfg.dwellCycles - 1 →
    (s.k < 3 → exec .digitAdvance s = .next { s with cnt := 0, k := s.k + 1 }) ∧
    (s.k = 3 → exec .digitAdvance s = .next { s with cnt := 0, k := 0, phase := .input })) ∧
  (∀ s : State, s.Ready → s.inDigit = true → s.inputs.rst = false → s.cfg.dwellCycles = 1 →
    s.fetch = [.digitWrite, .digitAdvance])

/-! ### Steps -/

/-- An edge runs the instructions its words decode to: the cycle rule of the SEQ word; in an INPUT cycle the key row of the port word; and
DIGIT_WRITE before the cycle rule where the SEQ word selects it. Around them the edge clears `we` and the locals and notes the key
offer it does not take first, and then uses up the edge's inputs (44_frame_control.md R123; the model's own fields: log 1, 10, 19). -/
def Obligations.StepRunsTheDecodedRules : Prop :=
  ∀ s : State, s.CanStep →
    (∀ i : Instr, decode .cycle (s.cycleSelect.word.zeroExtend 32) = .ok i → i ≠ .inputCycle →
      decode .digitWrite (s.cycleSelect.word.zeroExtend 32) = .error .noCommand →
      step s = andThen (exec i { s with we := false, offer := s.untaken, loc := Locals.idle }) fun t =>
        .next { t with stim := t.stim.tail, cycle := t.cycle + 1, loc := Locals.idle }) ∧
    (decode .cycle (s.cycleSelect.word.zeroExtend 32) = .ok .inputCycle →
      ∀ i : Instr, decode .frameKey (stimOfInputs s.inputs) = .ok i →
      step s = andThen (exec i { s with we := false, offer := s.untaken, loc := Locals.idle }) fun t =>
        .next { t with stim := t.stim.tail, cycle := t.cycle + 1, loc := Locals.idle }) ∧
    (∀ i : Instr, decode .digitWrite (s.cycleSelect.word.zeroExtend 32) = .ok .digitWrite →
      decode .cycle (s.cycleSelect.word.zeroExtend 32) = .ok i →
      step s = andThen (exec .digitWrite { s with we := false, offer := s.untaken, loc := Locals.idle }) fun u =>
        andThen (exec i u) fun t =>
          .next { t with stim := t.stim.tail, cycle := t.cycle + 1, loc := Locals.idle })

/-- The step is the cycle step of R123, on every state that meets the invariants and every input that holds the offer before it (log 19).
At a reset edge it is so on every state, one outside the invariants too: R144 and log 7. What it does to the model's own fields is
the model's: log 1, 10, 11, 19. -/
def Obligations.StepIsTheCycleStep : Prop :=
  ∀ s : State, s.CanStep →
    step s = .next { (cycleStep s s.inputs).1 with
      trace := s.trace ++ (cycleStep s s.inputs).2
      stim := s.stim.tail
      cycle := s.cycle + 1
      offer := if s.inputs.keyValid = true ∧ s.outputs.keyRdy = false then some s.inputs.keyByte else none
      loc := Locals.idle }

/-- The invariants hold after every step from every state that has them (10_state.md R30). -/
def Obligations.StepKeepsInvariant : Prop :=
  ∀ s t : State, s.Inv → step s = .next t → t.Inv

/-- The machine at reset has the invariants (10_state.md section 3). The configuration it has there is the model's choice (log 2, 4, 5);
the spec accepts it (00_scope.md R6, R9; 40_segment_encoder.md R75). -/
def Obligations.ResetMeetsInvariant : Prop :=
  State.reset.Inv ∧ State.reset.cfg.Valid

/-- Every state that a run reaches from a reset, with any accepted configuration and any inputs, satisfies the invariants (i) to (vi)
(10_state.md R30). -/
def Obligations.ReachableStatesMeetInvariant : Prop :=
  ∀ s : State, Reachable s →
    s.value.toNat ≤ 9999 ∧ s.cnt < s.cfg.dwellCycles ∧
    (s.phase = .input → s.k = 0 ∧ s.cnt = 0) ∧
    (s.run ≠ .running → s.phase = .input ∧ s.k = 0 ∧ s.cnt = 0) ∧
    (s.disp.extractLsb' 12 4 = 0 ∧
      (s.disp.extractLsb' 0 4 = 0 ∨ s.disp.extractLsb' 0 4 ∈ ([0b0001, 0b0010, 0b0100, 0b1000] : List Select))) ∧
    (s.run = .init → s.value = 0 ∧ s.prev = 0 ∧ s.disp = 0 ∧ s.we = false)

/-- What the spec gives no meaning. A refused configuration is refused by the step and by every well-formed instruction, RESET among them
(00_scope.md R6, R9; 40_segment_encoder.md R75; log 6). A withdrawn key offer is refused by the step (70_reset_and_hazards.md R150;
log 19). A state outside the invariants faults in the step without reset and in every well-formed instruction but RESET
(10_state.md R31); that RESET runs there is R144 of 70_reset_and_hazards.md and the model's reading of the two (log 7). -/
def Obligations.StatesWithoutMeaning : Prop :=
  (∀ s : State, ¬ s.cfg.Valid →
    step s = .refused .invalidConfiguration ∧
    ∀ i : Instr, i.wellFormed = true → exec i s = .refused .invalidConfiguration) ∧
  (∀ (s : State) (b : Byte), s.cfg.Valid → s.offer = some b → (s.inputs.keyValid = false ∨ s.inputs.keyByte ≠ b) →
    step s = .refused .offerWithdrawn) ∧
  ∀ s : State, s.cfg.Valid → ¬ s.Inv →
    (s.offerHeld = true → s.inputs.rst = false → step s = .fault .stateOutsideInvariant) ∧
    (∀ i : Instr, i.wellFormed = true → i ≠ .reset → exec i s = .fault .stateOutsideInvariant) ∧
    (∃ t : State, exec .reset s = .next t ∧ t.Inv)

/-- A rule in a cycle where it does not fire loads no register: the rules of the INPUT cycle outside it, the button and counter rules
also in a quit frame, the rules of the DIGIT phase outside it, INIT and HALTED outside their run states; a key or button row that is
not the one on the ports; a rule of the DIGIT phase at another dwell count (00_scope.md R12; the model's reading, log 8). -/
def Obligations.UnfiredRuleChangesNothing : Prop :=
  ∀ s : State, s.Ready →
    (s.inInput = false → ∀ i : Instr, i ∈ [Instr.keyU, .keyD, .keyP, .keyQ, .keyNone] → exec i s = .next s) ∧
    (s.inInput = false → ∀ b : Byte, exec (.keyOther b) s = .next s ∧ exec (.keyDecode b) s = .next s) ∧
    (s.takesInput = false → ∀ i : Instr,
      i ∈ [Instr.readError, .btnUp, .btnDown, .cmdNone, .cmdInc, .cmdDec, .cmdRst, .inputCycle] → exec i s = .next s) ∧
    (s.takesInput = false → ∀ (b : Byte) (kc : Cmd), exec (.btnSample b) s = .next s ∧ exec (.counterUpdate kc) s = .next s) ∧
    (s.inDigit = false → ∀ i : Instr, i ∈ [Instr.digitWrite, .dwellStep, .digitAdvance] → exec i s = .next s) ∧
    (s.run ≠ .init → exec .init s = .next s) ∧ (s.isHalted = false → exec .halted s = .next s) ∧
    (∀ i : Instr, i ∈ [Instr.keyU, .keyD, .keyP, .keyQ, .keyNone] → i ≠ s.keyRow → exec i s = .next s) ∧
    (∀ b : Byte, .keyOther b ≠ s.keyRow → exec (.keyOther b) s = .next s) ∧
    (∀ b : Byte, b ≠ s.inputs.keyByte → exec (.keyDecode b) s = .next s) ∧
    (∀ b : Byte, .btnSample b ≠ s.btnRow → exec (.btnSample b) s = .next s) ∧
    (.readError ≠ s.btnRow → exec .readError s = .next s) ∧ (s.cnt ≠ 0 → exec .digitWrite s = .next s) ∧
    (s.cnt = s.cfg.dwellCycles - 1 → exec .dwellStep s = .next s) ∧
    (s.cnt ≠ s.cfg.dwellCycles - 1 → exec .digitAdvance s = .next s)

/-- The INPUT cycle is its parts in the order of the data path: key decode, button sample with edge detection, key command, UP edge,
DOWN edge, and then the move to the DIGIT phase (44_frame_control.md R125). -/
def Obligations.InputCycleIsItsParts : Prop :=
  ∀ s : State, s.Ready → s.takesInput = true →
    exec s.keyRow s =
      andThen (runRules [.keyDecode s.inputs.keyByte, s.btnRow, cmdInstr s.key.1, .btnUp, .btnDown] s) (fun t =>
        .next { t with phase := .digit, k := 0, cnt := 0, we := false }) ∧
    exec s.keyRow s = runRules [.keyDecode s.inputs.keyByte, .inputCycle] s ∧
    exec .inputCycle s =
      andThen (runRules [s.btnRow, .counterUpdate s.key.1] s) (fun t =>
        .next { t with phase := .digit, k := 0, cnt := 0, we := false })

/-- The run states: only the QUIT key leads from RUNNING to TERMINATED, nothing else leads out of RUNNING, only reset leaves a halt state,
and INIT leads by the device check to RUNNING or FAILED (44_frame_control.md R110). -/
def Obligations.RunStateTransitions : Prop :=
  ∀ s t : State, step s = .next t → s.inputs.rst = false →
    (s.run = .running → t.run = .running ∨ t.run = .terminated) ∧
    (s.run = .running → (t.run = .terminated ↔ s.phase = .input ∧ s.inputs.keyValid = true ∧ s.inputs.keyByte = 0x71)) ∧
    (s.run = .terminated → t.run = .terminated) ∧ (s.run = .failed → t.run = .failed) ∧
    (s.run = .init → t.run = if s.inputs.devOk = true then .running else .failed)

/-- The write strobe: 1 after exactly the edges that write a digit or the blank word of a quit, each of which is one transfer of the word
then on the outputs; after every other edge 0, with no transfer and, but for reset, the same word (10_state.md R22, R23). -/
def Obligations.WriteStrobeMarksTransfers : Prop :=
  ∀ s t : State, step s = .next t →
    (t.we = true ↔ s.inputs.rst = false ∧
      ((s.inDigit = true ∧ s.cnt = 0) ∨ (s.inInput = true ∧ s.inputs.keyValid = true ∧ s.inputs.keyByte = 0x71))) ∧
    (t.we = true → writesOf t.trace = writesOf s.trace ++ [t.disp]) ∧
    (t.we = false → writesOf t.trace = writesOf s.trace ∧ (s.inputs.rst = false → t.disp = s.disp))

/-- A byte is taken exactly by the handshake, so at most one in an edge and only in an INPUT cycle (20_memory.md R39,
44_frame_control.md R112); a reset edge emits no event (70_reset_and_hazards.md R144). -/
def Obligations.KeyTakenExactlyByHandshake : Prop :=
  ∀ s t : State, step s = .next t →
    (s.inputs.rst = false →
      keysOf t.trace = keysOf s.trace ++ (if s.inputs.keyValid = true ∧ s.outputs.keyRdy = true then [s.inputs.keyByte] else [])) ∧
    (s.inputs.rst = true → t.trace = s.trace) ∧
    (s.outputs.keyRdy = true ↔ s.run = .running ∧ s.phase = .input)

/-- The reserved button bits have no effect: two states that differ at most in them stay so, with the same value and the same outputs, and
have emitted the same events in the same order but for those bits of the recorded samples, so the same transfers (20_memory.md R37). -/
def Obligations.ReservedButtonBitsHaveNoEffect : Prop :=
  ∀ s t s' : State, s.AgreeButReserved t → t.CanStep → step s = .next s' →
    ∃ t' : State, step t = .next t' ∧ s'.AgreeButReserved t' ∧
      s'.value = t'.value ∧ s'.outputs = t'.outputs ∧ writesOf s'.trace = writesOf t'.trace

/-- Each error has its effect inside its own edge and changes no control flow but E1 (60_exceptions.md R127 to R131, R134). -/
def Obligations.ErrorEffects : Prop :=
  ∀ s t : State, step s = .next t →
    (s.meets .deviceOpen = true → t.run = .failed ∧ t.outputs.halted = true ∧ t.outputs.exitErr = true ∧
      t.trace = s.trace ++ [.halt 1] ∧ t.disp = 0) ∧
    (s.meets .hardwareRead = true → t.run = .running ∧ t.phase = .digit ∧ t.prev = s.prev ∧
      t.value = applyCmd s.key.1 s.value ∧
      t.trace = s.trace ++ ((if s.inputs.keyValid = true then [.keyTaken s.inputs.keyByte] else []) ++ [.btnSampled none])) ∧
    s.meets .hardwareWrite = false ∧
    (s.meets .invalidInputByte = true → t.run = .running ∧ t.phase = .digit ∧
      t.value = counterUpdate .none (frameEdges s.inputs s.prev) s.value ∧
      t.trace = s.trace ++ [.keyTaken s.inputs.keyByte, .btnSampled (sampleOf s.inputs)])

/-! ### Frames -/

/-- The four words of a frame, for every value, and the table of examples (43_multiplexer.md R108). -/
def Obligations.FrameWordsTable : Prop :=
  (∀ (c : Config) (v : CounterValue),
    frameWords c v = [(0 : BitVec 2), 1, 2, 3].map fun k => displayWord (selectOf c k) (encodeDigit c (digit v k))) ∧
  frameWords Config.standard 1234 = [0x0F91, 0x0A42, 0x0B04, 0x0998] ∧
  frameWords Config.standard 0 = [0x0C01, 0x0C02, 0x0C04, 0x0C08] ∧
  frameWords Config.standard 9999 = [0x0901, 0x0902, 0x0904, 0x0908] ∧
  frameWords Config.standard 5 = [0x0C01, 0x0C02, 0x0C04, 0x0928] ∧
  frameWords Config.standard 43 = [0x0C01, 0x0C02, 0x0994, 0x0B08]

/-- The digits of a value are its decimal digits, leading zeros kept: they give it back (30_encoding.md R64). -/
def Obligations.DigitsGiveTheValueBack : Prop :=
  ∀ v : CounterValue, v.toNat ≤ 9999 →
    (digit v 0).val = v.toNat / 1000 % 10 ∧ (digit v 1).val = v.toNat / 100 % 10 ∧
    (digit v 2).val = v.toNat / 10 % 10 ∧ (digit v 3).val = v.toNat % 10 ∧
    (digit v 0).val = v.toNat / 1000 ∧ (∀ k : BitVec 2, digit 0 k = 0) ∧
    1000 * (digit v 0).val + 100 * (digit v 1).val + 10 * (digit v 2).val + (digit v 3).val = v.toNat

/-- The DIGIT phase after an INPUT cycle that does not quit: it lasts `4 × DWELL_CYCLES` cycles, in its cycle `j` the position is
`j div DWELL_CYCLES` and the count `j mod DWELL_CYCLES`, `value` is that of the INPUT cycle throughout, and an INPUT cycle follows
(43_multiplexer.md R97, R101). The key source holds its offers (70_reset_and_hazards.md R150). -/
def Obligations.DigitPhasePositions : Prop :=
  ∀ s : State, s.Ready → s.takesInput = true → s.NoReset (1 + 4 * s.cfg.dwellCycles) →
    s.offerHeld = true → s.HoldsOffers 1 (4 * s.cfg.dwellCycles) →
    (∀ j < 4 * s.cfg.dwellCycles, ∃ u : State, runFor (1 + j) s = .next u ∧ u.inDigit = true ∧
      u.k = BitVec.ofNat 2 (j / s.cfg.dwellCycles) ∧ u.cnt = j % s.cfg.dwellCycles ∧ u.value = s.frameValue) ∧
    ∃ u : State, runFor (1 + 4 * s.cfg.dwellCycles) s = .next u ∧ u.inInput = true ∧ u.value = s.frameValue

/-- FRAME: a frame that quits takes one cycle and writes the blank word; any other takes `1 + 4 × DWELL_CYCLES` cycles, leaves the
frame's value and button copy at an INPUT cycle, and writes `frameWords` of the value in order, each at its DIGIT cycle
(44_frame_control.md R124). The key source holds its offers (70_reset_and_hazards.md R150, log 19). -/
def Obligations.FrameFunction : Prop :=
  ∀ s : State, s.Ready → s.inInput = true → s.offerHeld = true → s.NoReset 1 →
    (s.key.2 = true → ∃ t : State, runFor 1 s = .next t ∧ t.run = .terminated ∧
      writesOf t.trace = writesOf s.trace ++ [0x0000]) ∧
    (s.key.2 = false → s.NoReset (1 + 4 * s.cfg.dwellCycles) → s.HoldsOffers 1 (4 * s.cfg.dwellCycles) →
      (∃ t : State, runFor (1 + 4 * s.cfg.dwellCycles) s = .next t ∧ t.run = .running ∧ t.phase = .input ∧
        t.value = counterUpdate s.key.1 (if s.inputs.btnValid = true then s.inputs.btn &&& ~~~s.prev else 0) s.value ∧
        t.prev = (if s.inputs.btnValid = true then s.inputs.btn else s.prev) ∧
        writesOf t.trace = writesOf s.trace ++ frameWords s.cfg t.value) ∧
      (∀ m < 4, ∃ u : State, runFor (1 + (m * s.cfg.dwellCycles + 1)) s = .next u ∧ u.we = true ∧
        some u.disp = (frameWords s.cfg s.frameValue)[m]? ∧
        writesOf u.trace = writesOf s.trace ++ (frameWords s.cfg s.frameValue).take (m + 1)) ∧
      (∀ j < 4 * s.cfg.dwellCycles, ∃ u : State, runFor (1 + j) s = .next u ∧
        u.outputs.keyRdy = false ∧ u.outputs.btnRd = false))

/-- How long each word is shown: after the edge that ends cycle `j` of the DIGIT phase the outputs show the word of position
`j div DWELL_CYCLES`, so each word of a frame is shown for its whole dwell. The ones digit stays on through the next INPUT cycle: where
that frame quits, its edge blanks the display, so the digit was shown for `DWELL_CYCLES` cycles; else it leaves the digit, with no
transfer, and the edge after it writes the new thousands digit, so it was shown for `DWELL_CYCLES + 1` (43_multiplexer.md R105).
The key source holds its offers (70_reset_and_hazards.md R150). -/
def Obligations.WordsAreHeldForTheirDwell : Prop :=
  ∀ s : State, s.Ready → s.takesInput = true → s.offerHeld = true →
    (s.NoReset (1 + 4 * s.cfg.dwellCycles) → s.HoldsOffers 1 (4 * s.cfg.dwellCycles) →
      ∀ j < 4 * s.cfg.dwellCycles, ∃ u : State, runFor (1 + (j + 1)) s = .next u ∧
        u.disp = digitWord s.cfg s.frameValue (BitVec.ofNat 2 (j / s.cfg.dwellCycles)) ∧
        (u.we = true ↔ j % s.cfg.dwellCycles = 0)) ∧
    (s.NoReset (2 + 4 * s.cfg.dwellCycles) → s.HoldsOffers 1 (1 + 4 * s.cfg.dwellCycles) →
      ∃ u v : State, runFor (1 + 4 * s.cfg.dwellCycles) s = .next u ∧ u.inInput = true ∧
        u.disp = digitWord s.cfg s.frameValue 3 ∧ step u = .next v ∧
        (u.key.2 = true → v.disp = 0x0000 ∧ v.we = true) ∧
        (u.key.2 = false → v.disp = digitWord s.cfg s.frameValue 3 ∧ v.we = false ∧
          (v.inputs.rst = false → ∃ w : State, step v = .next w ∧
            w.disp = digitWord s.cfg u.frameValue 0 ∧ w.we = true)))

/-- A key offered during a DIGIT phase, and held, waits for the next INPUT cycle, which comes after at most `4 × DWELL_CYCLES` cycles and
before which no byte is taken; the edge of that cycle takes it (44_frame_control.md R126, 70_reset_and_hazards.md R150). -/
def Obligations.KeyWaitsAtMostFourDwells : Prop :=
  ∀ (s : State) (n : Nat), s.Ready → s.inDigit = true → n + (s.k.toNat * s.cfg.dwellCycles + s.cnt) = 4 * s.cfg.dwellCycles →
    s.offerHeld = true →
    1 ≤ n ∧ n ≤ 4 * s.cfg.dwellCycles ∧
    (s.NoReset n → s.HoldsOffers 0 (n - 1) → ∃ t : State, runFor n s = .next t ∧ t.outputs.keyRdy = true ∧
      t.value = s.value ∧ t.prev = s.prev ∧ keysOf t.trace = keysOf s.trace) ∧
    (s.inputs.keyValid = true → s.NoReset (n + 1) → s.HoldsOffers 0 n → ∃ t : State, runFor (n + 1) s = .next t ∧
      keysOf t.trace = keysOf s.trace ++ [s.inputs.keyByte] ∧ t.offer = none)

/-! ### Ports -/

/-- The outputs are functions of the registers alone (10_state.md R27). -/
def Obligations.OutputPorts : Prop :=
  ∀ s : State,
    (s.outputs.keyRdy = true ↔ s.run = .running ∧ s.phase = .input) ∧
    (s.outputs.btnRd = true ↔ s.run = .running ∧ s.phase = .input) ∧
    s.outputs.dispWord = s.disp ∧ s.outputs.dispWe = s.we ∧
    (s.outputs.halted = true ↔ s.run = .terminated ∨ s.run = .failed) ∧
    (s.outputs.exitErr = true ↔ s.run = .failed)

/-- The sink's contract: a word with a position's select lights that position with the word's pattern, the blank word lights nothing, any
malformed word is ignored, and the block sends none (20_memory.md R42). R42 names no word with select 0, reserved bits 0 and a
pattern that is not 0: that it lights nothing is the model's reading (log 18), by 90_conflicts.md C3. -/
def Obligations.SinkContract : Prop :=
  (∀ (c : Config) (shown : Shown) (w : DisplayWord) (k : BitVec 2), c.Valid → wordSel w = selectOf c k → wordReserved w = 0 →
    sinkApply c shown w = some (k.toFin, wordPat w)) ∧
  (∀ (c : Config) (shown : Shown), sinkApply c shown 0x0000 = none) ∧
  (∀ (c : Config) (shown : Shown) (w : DisplayWord), wordSel w = 0 → wordReserved w = 0 → sinkApply c shown w = none) ∧
  (∀ (c : Config) (shown : Shown) (w : DisplayWord),
    (wordSel w ≠ 0 ∧ wordSel w ∉ oneHotSelects) ∨ wordReserved w ≠ 0 → sinkApply c shown w = shown) ∧
  (∀ (p : Pattern) (i : Fin 8), segmentLit p i = true ↔ p.getLsbD i = false) ∧
  ∀ s t : State, step s = .next t → t.we = true → sinkAccepts t.disp = true

/-- A DisplayWord over a byte stream: low byte first, two bytes one word, one byte none (20_memory.md R43, R44). -/
def Obligations.ByteStreamOrder : Prop :=
  ∀ w : DisplayWord, wordBytes w = [w.extractLsb' 0 8, w.extractLsb' 8 8] ∧ wordOfBytes (wordBytes w) = some w ∧
    ∀ b : Byte, wordOfBytes [b] = none

/-- The dwell counter fits its `CW`-bit register: reading the register gives the count (00_scope.md R10, 10_state.md R21). -/
def Obligations.DwellCounterFitsItsWidth : Prop :=
  ∀ s : State, s.Inv → s.cntBits.toNat = s.cnt ∧ 1 ≤ s.cfg.cntWidth
end

