-- ==== Sys2Proof/Laws/State.lean ====
section
/-! SUPPORT. Each field after each update of the state: one lemma per field per update, true by definition. -/

namespace Sys2Proof.Machine

variable (s : State)

@[simp] theorem State.emit_value (ev : List Event) : (s.emit ev).value = s.value := rfl
@[simp] theorem State.emit_prev (ev : List Event) : (s.emit ev).prev = s.prev := rfl
@[simp] theorem State.emit_run (ev : List Event) : (s.emit ev).run = s.run := rfl
@[simp] theorem State.emit_phase (ev : List Event) : (s.emit ev).phase = s.phase := rfl
@[simp] theorem State.emit_k (ev : List Event) : (s.emit ev).k = s.k := rfl
@[simp] theorem State.emit_cnt (ev : List Event) : (s.emit ev).cnt = s.cnt := rfl
@[simp] theorem State.emit_disp (ev : List Event) : (s.emit ev).disp = s.disp := rfl
@[simp] theorem State.emit_we (ev : List Event) : (s.emit ev).we = s.we := rfl
@[simp] theorem State.emit_cfg (ev : List Event) : (s.emit ev).cfg = s.cfg := rfl
@[simp] theorem State.emit_stim (ev : List Event) : (s.emit ev).stim = s.stim := rfl
@[simp] theorem State.emit_cycle (ev : List Event) : (s.emit ev).cycle = s.cycle := rfl
@[simp] theorem State.emit_offer (ev : List Event) : (s.emit ev).offer = s.offer := rfl
@[simp] theorem State.emit_trace (ev : List Event) : (s.emit ev).trace = s.trace ++ ev := rfl
@[simp] theorem State.emit_loc (ev : List Event) : (s.emit ev).loc = s.loc := rfl

@[simp] theorem State.writeDisplay_value (w : DisplayWord) : (s.writeDisplay w).value = s.value := rfl
@[simp] theorem State.writeDisplay_prev (w : DisplayWord) : (s.writeDisplay w).prev = s.prev := rfl
@[simp] theorem State.writeDisplay_run (w : DisplayWord) : (s.writeDisplay w).run = s.run := rfl
@[simp] theorem State.writeDisplay_phase (w : DisplayWord) : (s.writeDisplay w).phase = s.phase := rfl
@[simp] theorem State.writeDisplay_k (w : DisplayWord) : (s.writeDisplay w).k = s.k := rfl
@[simp] theorem State.writeDisplay_cnt (w : DisplayWord) : (s.writeDisplay w).cnt = s.cnt := rfl
@[simp] theorem State.writeDisplay_disp (w : DisplayWord) : (s.writeDisplay w).disp = w := rfl
@[simp] theorem State.writeDisplay_we (w : DisplayWord) : (s.writeDisplay w).we = true := rfl
@[simp] theorem State.writeDisplay_cfg (w : DisplayWord) : (s.writeDisplay w).cfg = s.cfg := rfl
@[simp] theorem State.writeDisplay_stim (w : DisplayWord) : (s.writeDisplay w).stim = s.stim := rfl
@[simp] theorem State.writeDisplay_cycle (w : DisplayWord) : (s.writeDisplay w).cycle = s.cycle := rfl
@[simp] theorem State.writeDisplay_offer (w : DisplayWord) : (s.writeDisplay w).offer = s.offer := rfl
@[simp] theorem State.writeDisplay_trace (w : DisplayWord) : (s.writeDisplay w).trace = s.trace ++ [.dispWrite w] := rfl
@[simp] theorem State.writeDisplay_loc (w : DisplayWord) : (s.writeDisplay w).loc = s.loc := rfl

@[simp] theorem State.latchKey_value (key : Cmd × Bool) : (s.latchKey key).value = s.value := rfl
@[simp] theorem State.latchKey_prev (key : Cmd × Bool) : (s.latchKey key).prev = s.prev := rfl
@[simp] theorem State.latchKey_run (key : Cmd × Bool) : (s.latchKey key).run = s.run := rfl
@[simp] theorem State.latchKey_phase (key : Cmd × Bool) : (s.latchKey key).phase = s.phase := rfl
@[simp] theorem State.latchKey_k (key : Cmd × Bool) : (s.latchKey key).k = s.k := rfl
@[simp] theorem State.latchKey_cnt (key : Cmd × Bool) : (s.latchKey key).cnt = s.cnt := rfl
@[simp] theorem State.latchKey_disp (key : Cmd × Bool) : (s.latchKey key).disp = s.disp := rfl
@[simp] theorem State.latchKey_we (key : Cmd × Bool) : (s.latchKey key).we = s.we := rfl
@[simp] theorem State.latchKey_cfg (key : Cmd × Bool) : (s.latchKey key).cfg = s.cfg := rfl
@[simp] theorem State.latchKey_stim (key : Cmd × Bool) : (s.latchKey key).stim = s.stim := rfl
@[simp] theorem State.latchKey_cycle (key : Cmd × Bool) : (s.latchKey key).cycle = s.cycle := rfl
@[simp] theorem State.latchKey_offer (key : Cmd × Bool) : (s.latchKey key).offer = s.offer := rfl
@[simp] theorem State.latchKey_trace (key : Cmd × Bool) : (s.latchKey key).trace = s.trace := rfl
@[simp] theorem State.latchKey_loc (key : Cmd × Bool) : (s.latchKey key).loc = { s.loc with kc := key.1, quit := key.2 } := rfl

@[simp] theorem State.latchEdges_value (e : Byte) : (s.latchEdges e).value = s.value := rfl
@[simp] theorem State.latchEdges_prev (e : Byte) : (s.latchEdges e).prev = s.prev := rfl
@[simp] theorem State.latchEdges_run (e : Byte) : (s.latchEdges e).run = s.run := rfl
@[simp] theorem State.latchEdges_phase (e : Byte) : (s.latchEdges e).phase = s.phase := rfl
@[simp] theorem State.latchEdges_k (e : Byte) : (s.latchEdges e).k = s.k := rfl
@[simp] theorem State.latchEdges_cnt (e : Byte) : (s.latchEdges e).cnt = s.cnt := rfl
@[simp] theorem State.latchEdges_disp (e : Byte) : (s.latchEdges e).disp = s.disp := rfl
@[simp] theorem State.latchEdges_we (e : Byte) : (s.latchEdges e).we = s.we := rfl
@[simp] theorem State.latchEdges_cfg (e : Byte) : (s.latchEdges e).cfg = s.cfg := rfl
@[simp] theorem State.latchEdges_stim (e : Byte) : (s.latchEdges e).stim = s.stim := rfl
@[simp] theorem State.latchEdges_cycle (e : Byte) : (s.latchEdges e).cycle = s.cycle := rfl
@[simp] theorem State.latchEdges_offer (e : Byte) : (s.latchEdges e).offer = s.offer := rfl
@[simp] theorem State.latchEdges_trace (e : Byte) : (s.latchEdges e).trace = s.trace := rfl
@[simp] theorem State.latchEdges_loc (e : Byte) : (s.latchEdges e).loc = { s.loc with e := e } := rfl

@[simp] theorem State.encodeAt_value (d : Fin 10) : (s.encodeAt d).value = s.value := rfl
@[simp] theorem State.encodeAt_prev (d : Fin 10) : (s.encodeAt d).prev = s.prev := rfl
@[simp] theorem State.encodeAt_run (d : Fin 10) : (s.encodeAt d).run = s.run := rfl
@[simp] theorem State.encodeAt_phase (d : Fin 10) : (s.encodeAt d).phase = s.phase := rfl
@[simp] theorem State.encodeAt_k (d : Fin 10) : (s.encodeAt d).k = s.k := rfl
@[simp] theorem State.encodeAt_cnt (d : Fin 10) : (s.encodeAt d).cnt = s.cnt := rfl
@[simp] theorem State.encodeAt_disp (d : Fin 10) : (s.encodeAt d).disp = s.disp := rfl
@[simp] theorem State.encodeAt_we (d : Fin 10) : (s.encodeAt d).we = s.we := rfl
@[simp] theorem State.encodeAt_cfg (d : Fin 10) : (s.encodeAt d).cfg = s.cfg := rfl
@[simp] theorem State.encodeAt_stim (d : Fin 10) : (s.encodeAt d).stim = s.stim := rfl
@[simp] theorem State.encodeAt_cycle (d : Fin 10) : (s.encodeAt d).cycle = s.cycle := rfl
@[simp] theorem State.encodeAt_offer (d : Fin 10) : (s.encodeAt d).offer = s.offer := rfl
@[simp] theorem State.encodeAt_trace (d : Fin 10) : (s.encodeAt d).trace = s.trace := rfl
@[simp] theorem State.encodeAt_loc (d : Fin 10) : (s.encodeAt d).loc = { s.loc with pat := encodeDigit s.cfg d } := rfl

@[simp] theorem State.loadValue_value (v : CounterValue) : (s.loadValue v).value = v := rfl
@[simp] theorem State.loadValue_prev (v : CounterValue) : (s.loadValue v).prev = s.prev := rfl
@[simp] theorem State.loadValue_run (v : CounterValue) : (s.loadValue v).run = s.run := rfl
@[simp] theorem State.loadValue_phase (v : CounterValue) : (s.loadValue v).phase = s.phase := rfl
@[simp] theorem State.loadValue_k (v : CounterValue) : (s.loadValue v).k = s.k := rfl
@[simp] theorem State.loadValue_cnt (v : CounterValue) : (s.loadValue v).cnt = s.cnt := rfl
@[simp] theorem State.loadValue_disp (v : CounterValue) : (s.loadValue v).disp = s.disp := rfl
@[simp] theorem State.loadValue_we (v : CounterValue) : (s.loadValue v).we = s.we := rfl
@[simp] theorem State.loadValue_cfg (v : CounterValue) : (s.loadValue v).cfg = s.cfg := rfl
@[simp] theorem State.loadValue_stim (v : CounterValue) : (s.loadValue v).stim = s.stim := rfl
@[simp] theorem State.loadValue_cycle (v : CounterValue) : (s.loadValue v).cycle = s.cycle := rfl
@[simp] theorem State.loadValue_offer (v : CounterValue) : (s.loadValue v).offer = s.offer := rfl
@[simp] theorem State.loadValue_trace (v : CounterValue) : (s.loadValue v).trace = s.trace := rfl
@[simp] theorem State.loadValue_loc (v : CounterValue) : (s.loadValue v).loc = s.loc := rfl

@[simp] theorem State.loadPrev_value (b : Byte) : (s.loadPrev b).value = s.value := rfl
@[simp] theorem State.loadPrev_prev (b : Byte) : (s.loadPrev b).prev = b := rfl
@[simp] theorem State.loadPrev_run (b : Byte) : (s.loadPrev b).run = s.run := rfl
@[simp] theorem State.loadPrev_phase (b : Byte) : (s.loadPrev b).phase = s.phase := rfl
@[simp] theorem State.loadPrev_k (b : Byte) : (s.loadPrev b).k = s.k := rfl
@[simp] theorem State.loadPrev_cnt (b : Byte) : (s.loadPrev b).cnt = s.cnt := rfl
@[simp] theorem State.loadPrev_disp (b : Byte) : (s.loadPrev b).disp = s.disp := rfl
@[simp] theorem State.loadPrev_we (b : Byte) : (s.loadPrev b).we = s.we := rfl
@[simp] theorem State.loadPrev_cfg (b : Byte) : (s.loadPrev b).cfg = s.cfg := rfl
@[simp] theorem State.loadPrev_stim (b : Byte) : (s.loadPrev b).stim = s.stim := rfl
@[simp] theorem State.loadPrev_cycle (b : Byte) : (s.loadPrev b).cycle = s.cycle := rfl
@[simp] theorem State.loadPrev_offer (b : Byte) : (s.loadPrev b).offer = s.offer := rfl
@[simp] theorem State.loadPrev_trace (b : Byte) : (s.loadPrev b).trace = s.trace := rfl
@[simp] theorem State.loadPrev_loc (b : Byte) : (s.loadPrev b).loc = s.loc := rfl

@[simp] theorem State.goodSample_value (b : Byte) : (s.goodSample b).value = s.value := rfl
@[simp] theorem State.goodSample_prev (b : Byte) : (s.goodSample b).prev = b := rfl
@[simp] theorem State.goodSample_run (b : Byte) : (s.goodSample b).run = s.run := rfl
@[simp] theorem State.goodSample_phase (b : Byte) : (s.goodSample b).phase = s.phase := rfl
@[simp] theorem State.goodSample_k (b : Byte) : (s.goodSample b).k = s.k := rfl
@[simp] theorem State.goodSample_cnt (b : Byte) : (s.goodSample b).cnt = s.cnt := rfl
@[simp] theorem State.goodSample_disp (b : Byte) : (s.goodSample b).disp = s.disp := rfl
@[simp] theorem State.goodSample_we (b : Byte) : (s.goodSample b).we = s.we := rfl
@[simp] theorem State.goodSample_cfg (b : Byte) : (s.goodSample b).cfg = s.cfg := rfl
@[simp] theorem State.goodSample_stim (b : Byte) : (s.goodSample b).stim = s.stim := rfl
@[simp] theorem State.goodSample_cycle (b : Byte) : (s.goodSample b).cycle = s.cycle := rfl
@[simp] theorem State.goodSample_offer (b : Byte) : (s.goodSample b).offer = s.offer := rfl
@[simp] theorem State.goodSample_trace (b : Byte) : (s.goodSample b).trace = s.trace ++ [.btnSampled (some b)] := rfl
@[simp] theorem State.goodSample_loc (b : Byte) : (s.goodSample b).loc = { s.loc with e := detectEdges b s.prev } := rfl

@[simp] theorem State.failedSample_value : (s.failedSample).value = s.value := rfl
@[simp] theorem State.failedSample_prev : (s.failedSample).prev = s.prev := rfl
@[simp] theorem State.failedSample_run : (s.failedSample).run = s.run := rfl
@[simp] theorem State.failedSample_phase : (s.failedSample).phase = s.phase := rfl
@[simp] theorem State.failedSample_k : (s.failedSample).k = s.k := rfl
@[simp] theorem State.failedSample_cnt : (s.failedSample).cnt = s.cnt := rfl
@[simp] theorem State.failedSample_disp : (s.failedSample).disp = s.disp := rfl
@[simp] theorem State.failedSample_we : (s.failedSample).we = s.we := rfl
@[simp] theorem State.failedSample_cfg : (s.failedSample).cfg = s.cfg := rfl
@[simp] theorem State.failedSample_stim : (s.failedSample).stim = s.stim := rfl
@[simp] theorem State.failedSample_cycle : (s.failedSample).cycle = s.cycle := rfl
@[simp] theorem State.failedSample_offer : (s.failedSample).offer = s.offer := rfl
@[simp] theorem State.failedSample_trace : (s.failedSample).trace = s.trace ++ [.btnSampled none] := rfl
@[simp] theorem State.failedSample_loc : (s.failedSample).loc = { s.loc with e := 0x00 } := rfl

@[simp] theorem State.updateCounter_value (kc : Cmd) : (s.updateCounter kc).value = counterUpdate kc s.loc.e s.value := rfl
@[simp] theorem State.updateCounter_prev (kc : Cmd) : (s.updateCounter kc).prev = s.prev := rfl
@[simp] theorem State.updateCounter_run (kc : Cmd) : (s.updateCounter kc).run = s.run := rfl
@[simp] theorem State.updateCounter_phase (kc : Cmd) : (s.updateCounter kc).phase = s.phase := rfl
@[simp] theorem State.updateCounter_k (kc : Cmd) : (s.updateCounter kc).k = s.k := rfl
@[simp] theorem State.updateCounter_cnt (kc : Cmd) : (s.updateCounter kc).cnt = s.cnt := rfl
@[simp] theorem State.updateCounter_disp (kc : Cmd) : (s.updateCounter kc).disp = s.disp := rfl
@[simp] theorem State.updateCounter_we (kc : Cmd) : (s.updateCounter kc).we = s.we := rfl
@[simp] theorem State.updateCounter_cfg (kc : Cmd) : (s.updateCounter kc).cfg = s.cfg := rfl
@[simp] theorem State.updateCounter_stim (kc : Cmd) : (s.updateCounter kc).stim = s.stim := rfl
@[simp] theorem State.updateCounter_cycle (kc : Cmd) : (s.updateCounter kc).cycle = s.cycle := rfl
@[simp] theorem State.updateCounter_offer (kc : Cmd) : (s.updateCounter kc).offer = s.offer := rfl
@[simp] theorem State.updateCounter_trace (kc : Cmd) : (s.updateCounter kc).trace = s.trace := rfl
@[simp] theorem State.updateCounter_loc (kc : Cmd) : (s.updateCounter kc).loc = s.loc := rfl

@[simp] theorem State.enterDigits_value : (s.enterDigits).value = s.value := rfl
@[simp] theorem State.enterDigits_prev : (s.enterDigits).prev = s.prev := rfl
@[simp] theorem State.enterDigits_run : (s.enterDigits).run = s.run := rfl
@[simp] theorem State.enterDigits_phase : (s.enterDigits).phase = .digit := rfl
@[simp] theorem State.enterDigits_k : (s.enterDigits).k = 0 := rfl
@[simp] theorem State.enterDigits_cnt : (s.enterDigits).cnt = 0 := rfl
@[simp] theorem State.enterDigits_disp : (s.enterDigits).disp = s.disp := rfl
@[simp] theorem State.enterDigits_we : (s.enterDigits).we = false := rfl
@[simp] theorem State.enterDigits_cfg : (s.enterDigits).cfg = s.cfg := rfl
@[simp] theorem State.enterDigits_stim : (s.enterDigits).stim = s.stim := rfl
@[simp] theorem State.enterDigits_cycle : (s.enterDigits).cycle = s.cycle := rfl
@[simp] theorem State.enterDigits_offer : (s.enterDigits).offer = s.offer := rfl
@[simp] theorem State.enterDigits_trace : (s.enterDigits).trace = s.trace := rfl
@[simp] theorem State.enterDigits_loc : (s.enterDigits).loc = s.loc := rfl

@[simp] theorem State.stepDwell_value : (s.stepDwell).value = s.value := rfl
@[simp] theorem State.stepDwell_prev : (s.stepDwell).prev = s.prev := rfl
@[simp] theorem State.stepDwell_run : (s.stepDwell).run = s.run := rfl
@[simp] theorem State.stepDwell_phase : (s.stepDwell).phase = s.phase := rfl
@[simp] theorem State.stepDwell_k : (s.stepDwell).k = s.k := rfl
@[simp] theorem State.stepDwell_cnt : (s.stepDwell).cnt = s.cnt + 1 := rfl
@[simp] theorem State.stepDwell_disp : (s.stepDwell).disp = s.disp := rfl
@[simp] theorem State.stepDwell_we : (s.stepDwell).we = s.we := rfl
@[simp] theorem State.stepDwell_cfg : (s.stepDwell).cfg = s.cfg := rfl
@[simp] theorem State.stepDwell_stim : (s.stepDwell).stim = s.stim := rfl
@[simp] theorem State.stepDwell_cycle : (s.stepDwell).cycle = s.cycle := rfl
@[simp] theorem State.stepDwell_offer : (s.stepDwell).offer = s.offer := rfl
@[simp] theorem State.stepDwell_trace : (s.stepDwell).trace = s.trace := rfl
@[simp] theorem State.stepDwell_loc : (s.stepDwell).loc = s.loc := rfl

@[simp] theorem State.hold_value : (s.hold).value = s.value := rfl
@[simp] theorem State.hold_prev : (s.hold).prev = s.prev := rfl
@[simp] theorem State.hold_run : (s.hold).run = s.run := rfl
@[simp] theorem State.hold_phase : (s.hold).phase = s.phase := rfl
@[simp] theorem State.hold_k : (s.hold).k = s.k := rfl
@[simp] theorem State.hold_cnt : (s.hold).cnt = s.cnt := rfl
@[simp] theorem State.hold_disp : (s.hold).disp = s.disp := rfl
@[simp] theorem State.hold_we : (s.hold).we = false := rfl
@[simp] theorem State.hold_cfg : (s.hold).cfg = s.cfg := rfl
@[simp] theorem State.hold_stim : (s.hold).stim = s.stim := rfl
@[simp] theorem State.hold_cycle : (s.hold).cycle = s.cycle := rfl
@[simp] theorem State.hold_offer : (s.hold).offer = s.offer := rfl
@[simp] theorem State.hold_trace : (s.hold).trace = s.trace := rfl
@[simp] theorem State.hold_loc : (s.hold).loc = s.loc := rfl

@[simp] theorem State.resetRegisters_value : (s.resetRegisters).value = 0 := rfl
@[simp] theorem State.resetRegisters_prev : (s.resetRegisters).prev = 0x00 := rfl
@[simp] theorem State.resetRegisters_run : (s.resetRegisters).run = .init := rfl
@[simp] theorem State.resetRegisters_phase : (s.resetRegisters).phase = .input := rfl
@[simp] theorem State.resetRegisters_k : (s.resetRegisters).k = 0 := rfl
@[simp] theorem State.resetRegisters_cnt : (s.resetRegisters).cnt = 0 := rfl
@[simp] theorem State.resetRegisters_disp : (s.resetRegisters).disp = 0x0000 := rfl
@[simp] theorem State.resetRegisters_we : (s.resetRegisters).we = false := rfl
@[simp] theorem State.resetRegisters_cfg : (s.resetRegisters).cfg = s.cfg := rfl
@[simp] theorem State.resetRegisters_stim : (s.resetRegisters).stim = s.stim := rfl
@[simp] theorem State.resetRegisters_cycle : (s.resetRegisters).cycle = s.cycle := rfl
@[simp] theorem State.resetRegisters_offer : (s.resetRegisters).offer = s.offer := rfl
@[simp] theorem State.resetRegisters_trace : (s.resetRegisters).trace = s.trace := rfl
@[simp] theorem State.resetRegisters_loc : (s.resetRegisters).loc = s.loc := rfl

@[simp] theorem State.beginEdge_value : (s.beginEdge).value = s.value := rfl
@[simp] theorem State.beginEdge_prev : (s.beginEdge).prev = s.prev := rfl
@[simp] theorem State.beginEdge_run : (s.beginEdge).run = s.run := rfl
@[simp] theorem State.beginEdge_phase : (s.beginEdge).phase = s.phase := rfl
@[simp] theorem State.beginEdge_k : (s.beginEdge).k = s.k := rfl
@[simp] theorem State.beginEdge_cnt : (s.beginEdge).cnt = s.cnt := rfl
@[simp] theorem State.beginEdge_disp : (s.beginEdge).disp = s.disp := rfl
@[simp] theorem State.beginEdge_we : (s.beginEdge).we = false := rfl
@[simp] theorem State.beginEdge_cfg : (s.beginEdge).cfg = s.cfg := rfl
@[simp] theorem State.beginEdge_stim : (s.beginEdge).stim = s.stim := rfl
@[simp] theorem State.beginEdge_cycle : (s.beginEdge).cycle = s.cycle := rfl
@[simp] theorem State.beginEdge_offer : (s.beginEdge).offer = s.untaken := rfl
@[simp] theorem State.beginEdge_trace : (s.beginEdge).trace = s.trace := rfl
@[simp] theorem State.beginEdge_loc : (s.beginEdge).loc = Locals.idle := rfl

@[simp] theorem State.endEdge_value : (s.endEdge).value = s.value := rfl
@[simp] theorem State.endEdge_prev : (s.endEdge).prev = s.prev := rfl
@[simp] theorem State.endEdge_run : (s.endEdge).run = s.run := rfl
@[simp] theorem State.endEdge_phase : (s.endEdge).phase = s.phase := rfl
@[simp] theorem State.endEdge_k : (s.endEdge).k = s.k := rfl
@[simp] theorem State.endEdge_cnt : (s.endEdge).cnt = s.cnt := rfl
@[simp] theorem State.endEdge_disp : (s.endEdge).disp = s.disp := rfl
@[simp] theorem State.endEdge_we : (s.endEdge).we = s.we := rfl
@[simp] theorem State.endEdge_cfg : (s.endEdge).cfg = s.cfg := rfl
@[simp] theorem State.endEdge_stim : (s.endEdge).stim = s.stim.tail := rfl
@[simp] theorem State.endEdge_cycle : (s.endEdge).cycle = s.cycle + 1 := rfl
@[simp] theorem State.endEdge_offer : (s.endEdge).offer = s.offer := rfl
@[simp] theorem State.endEdge_trace : (s.endEdge).trace = s.trace := rfl
@[simp] theorem State.endEdge_loc : (s.endEdge).loc = Locals.idle := rfl

@[simp] theorem State.withInputs_value (i : Inputs) : (s.withInputs i).value = s.value := rfl
@[simp] theorem State.withInputs_prev (i : Inputs) : (s.withInputs i).prev = s.prev := rfl
@[simp] theorem State.withInputs_run (i : Inputs) : (s.withInputs i).run = s.run := rfl
@[simp] theorem State.withInputs_phase (i : Inputs) : (s.withInputs i).phase = s.phase := rfl
@[simp] theorem State.withInputs_k (i : Inputs) : (s.withInputs i).k = s.k := rfl
@[simp] theorem State.withInputs_cnt (i : Inputs) : (s.withInputs i).cnt = s.cnt := rfl
@[simp] theorem State.withInputs_disp (i : Inputs) : (s.withInputs i).disp = s.disp := rfl
@[simp] theorem State.withInputs_we (i : Inputs) : (s.withInputs i).we = s.we := rfl
@[simp] theorem State.withInputs_cfg (i : Inputs) : (s.withInputs i).cfg = s.cfg := rfl
@[simp] theorem State.withInputs_stim (i : Inputs) : (s.withInputs i).stim = i :: s.stim.tail := rfl
@[simp] theorem State.withInputs_cycle (i : Inputs) : (s.withInputs i).cycle = s.cycle := rfl
@[simp] theorem State.withInputs_offer (i : Inputs) : (s.withInputs i).offer = none := rfl
@[simp] theorem State.withInputs_trace (i : Inputs) : (s.withInputs i).trace = s.trace := rfl
@[simp] theorem State.withInputs_loc (i : Inputs) : (s.withInputs i).loc = s.loc := rfl

end Sys2Proof.Machine
end

