-- ==== Sys2Proof/Laws/Ops.lean ====
section
/-! SUPPORT. What each shared operation can do, said once: the form of a rule, sequencing, the fetch of a cycle, and the words. -/

namespace Sys2Proof.Machine

/-! ### Rules and sequencing -/

theorem rule_of_ready {s : State} (h : s.cfg.Valid) (hi : s.Inv) (fires : Bool) (f : State → State) :
    rule s fires f = .next (if fires then f s else s) := by
  unfold rule; rw [if_pos h, if_pos hi]

theorem rule_fires {s : State} (h : s.cfg.Valid) (hi : s.Inv) {fires : Bool} (f : State → State) (hf : fires = true) :
    rule s fires f = .next (f s) := by
  rw [rule_of_ready h hi, if_pos hf]

theorem rule_idle {s : State} (h : s.cfg.Valid) (hi : s.Inv) {fires : Bool} (f : State → State) (hf : fires = false) :
    rule s fires f = .next s := by
  rw [rule_of_ready h hi, hf]; rfl

theorem rule_of_invalid {s : State} (h : ¬ s.cfg.Valid) (fires : Bool) (f : State → State) :
    rule s fires f = .refused .invalidConfiguration := by
  unfold rule; rw [if_neg h]

theorem rule_of_not_inv {s : State} (h : s.cfg.Valid) (hi : ¬ s.Inv) (fires : Bool) (f : State → State) :
    rule s fires f = .fault .stateOutsideInvariant := by
  unfold rule; rw [if_pos h, if_neg hi]

/-- All a rule can do when it answers a next state. -/
theorem rule_next {s t : State} {fires : Bool} {f : State → State} (h : rule s fires f = .next t) :
    s.cfg.Valid ∧ s.Inv ∧ t = if fires then f s else s := by
  by_cases hv : s.cfg.Valid
  · by_cases hi : s.Inv
    · rw [rule_of_ready hv hi] at h
      exact ⟨hv, hi, by injection h with h; exact h.symm⟩
    · rw [rule_of_not_inv hv hi] at h; cases h
  · rw [rule_of_invalid hv] at h; cases h

@[simp] theorem andThen_of_next (s : State) (f : State → Result) : andThen (.next s) f = f s := rfl

theorem andThen_next {o : Result} {f : State → Result} {t : State} (h : andThen o f = .next t) :
    ∃ u, o = .next u ∧ f u = .next t := by
  cases o with
  | next u => exact ⟨u, rfl, h⟩
  | fault r => cases h
  | refused r => cases h

@[simp] theorem runRules_nil (s : State) : runRules [] s = .next s := rfl

@[simp] theorem runRules_cons (i : Instr) (is : List Instr) (s : State) :
    runRules (i :: is) s = andThen (exec i s) (runRules is) := rfl

/-- All an edge can do when it answers a next state. -/
theorem edge_next {s t : State} (h : edge s = .next t) :
    s.cfg.Valid ∧ s.offerHeld = true ∧ (s.inputs.rst = true ∨ s.Inv) ∧
      ∃ u, runRules s.fetch s.beginEdge = .next u ∧ t = u.endEdge := by
  unfold edge at h
  by_cases hv : s.cfg.Valid
  · rw [if_pos hv] at h
    by_cases ho : s.offerHeld = true
    · rw [if_pos ho] at h
      by_cases hc : s.inputs.rst = true ∨ s.Inv
      · rw [if_pos hc] at h
        obtain ⟨u, hu, ht⟩ := andThen_next h
        exact ⟨hv, ho, hc, u, hu, by injection ht with ht; exact ht.symm⟩
      · rw [if_neg hc] at h; cases h
    · rw [if_neg ho] at h; cases h
  · rw [if_neg hv] at h; cases h

theorem edge_of_canStep {s : State} (hv : s.cfg.Valid) (ho : s.offerHeld = true) (hc : s.inputs.rst = true ∨ s.Inv) :
    edge s = andThen (runRules s.fetch s.beginEdge) fun t => .next t.endEdge := by
  unfold edge; rw [if_pos hv, if_pos ho, if_pos hc]

theorem edge_of_withdrawn {s : State} (hv : s.cfg.Valid) (ho : s.offerHeld = false) :
    edge s = .refused .offerWithdrawn := by
  unfold edge; rw [if_pos hv, if_neg (by rw [ho]; decide)]

/-! ### Key offers -/

/-- When an edge finds the offer held: none was made, or its byte still stands. -/
theorem offerHeld_iff (s : State) :
    s.offerHeld = true ↔ ∀ b, s.offer = some b → s.inputs.keyValid = true ∧ s.inputs.keyByte = b := by
  unfold State.offerHeld
  cases s.offer <;> simp

/-- The byte an edge leaves on offer. -/
theorem untaken_eq_some (s : State) (b : Byte) :
    s.untaken = some b ↔ s.inputs.keyValid = true ∧ s.outputs.keyRdy = false ∧ s.inputs.keyByte = b := by
  unfold State.untaken
  cases s.inputs.keyValid <;> cases s.outputs.keyRdy <;> simp

theorem step_eq_edge (s : State) : step s = edge s := rfl

/-! ### Inputs -/

theorem inputs_of_stim {s t : State} (hs : t.stim = s.stim) (hc : t.cycle = s.cycle) : t.inputs = s.inputs := by
  unfold State.inputs State.inputAt; rw [hs, hc]

@[simp] theorem beginEdge_inputs (s : State) : s.beginEdge.inputs = s.inputs := rfl

theorem endEdge_inputAt (s : State) (j : Nat) : s.endEdge.inputAt j = s.inputAt (j + 1) := by
  unfold State.inputAt
  simp only [State.endEdge_stim, State.endEdge_cycle, List.getElem?_tail]
  cases s.stim[j + 1]? with
  | some i => rfl
  | none => simp only [Nat.add_assoc, Nat.add_comm 1 j]

/-! ### Which rules a cycle fires -/

theorem fetch_reset {s : State} (h : s.inputs.rst = true) : s.fetch = [.reset] := by
  simp [State.fetch, State.cycleSelect, decodeCycle, writesDigit, h]

theorem fetch_init {s : State} (h : s.inputs.rst = false) (hr : s.run = .init) : s.fetch = [.init] := by
  simp [State.fetch, State.cycleSelect, decodeCycle, writesDigit, h, hr, runCode]

theorem fetch_halted {s : State} (h : s.inputs.rst = false) (hr : s.isHalted = true) : s.fetch = [.halted] := by
  have hr' : s.run = .terminated ∨ s.run = .failed := by simpa [State.isHalted] using hr
  rcases hr' with hr' | hr' <;> simp [State.fetch, State.cycleSelect, decodeCycle, writesDigit, h, hr', runCode]

theorem fetch_input {s : State} (h : s.inputs.rst = false) (hr : s.inInput = true) : s.fetch = [s.keyRow] := by
  obtain ⟨hr, hp⟩ : s.run = .running ∧ s.phase = .input := by simpa [State.inInput] using hr
  simp [State.fetch, State.cycleSelect, decodeCycle, writesDigit, h, hr, hp, runCode, phaseCode]

theorem fetch_digit {s : State} (h : s.inputs.rst = false) (hr : s.inDigit = true) :
    s.fetch = (if s.cnt = 0 then [Instr.digitWrite] else []) ++
      [if s.cnt = s.cfg.dwellCycles - 1 then .digitAdvance else .dwellStep] := by
  obtain ⟨hr, hp⟩ : s.run = .running ∧ s.phase = .digit := by simpa [State.inDigit] using hr
  by_cases h0 : s.cnt = 0 <;> by_cases hl : s.cnt = s.cfg.dwellCycles - 1 <;>
    simp [State.fetch, State.cycleSelect, decodeCycle, writesDigit, h, hr, hp, runCode, phaseCode, h0, hl] <;>
    simp_all

/-- The run state and phase of a state, one of the four kinds of cycle. -/
theorem cycle_cases (s : State) :
    s.run = .init ∨ s.isHalted = true ∨ s.inInput = true ∨ s.inDigit = true := by
  cases hr : s.run <;> cases hp : s.phase <;> simp [State.isHalted, State.inInput, State.inDigit, hr, hp]

/-! ### The key row of the ports -/

/-- The key row and the key decode agree: each row with its command and quit flag. -/
theorem key_of_keyRow (s : State) :
    (s.keyRow = .keyU ∧ s.key = (.inc, false)) ∨ (s.keyRow = .keyD ∧ s.key = (.dec, false)) ∨
    (s.keyRow = .keyP ∧ s.key = (.rst, false)) ∨ (s.keyRow = .keyQ ∧ s.key = (.none, true)) ∨
    (s.keyRow = .keyOther s.inputs.keyByte ∧ s.key = (.none, false)) ∨
    (s.keyRow = .keyNone ∧ s.key = (.none, false)) := by
  unfold State.keyRow State.key decodeKey keydec
  cases s.inputs.keyValid
  · exact Or.inr <| Or.inr <| Or.inr <| Or.inr <| Or.inr ⟨rfl, rfl⟩
  · by_cases h1 : s.inputs.keyByte = 0x75
    · simp only [if_pos h1]; exact Or.inl ⟨rfl, rfl⟩
    simp only [if_neg h1]; refine Or.inr ?_
    by_cases h2 : s.inputs.keyByte = 0x64
    · simp only [if_pos h2]; exact Or.inl ⟨rfl, rfl⟩
    simp only [if_neg h2]; refine Or.inr ?_
    by_cases h3 : s.inputs.keyByte = 0x70
    · simp only [if_pos h3]; exact Or.inl ⟨rfl, rfl⟩
    simp only [if_neg h3]; refine Or.inr ?_
    by_cases h4 : s.inputs.keyByte = 0x71
    · simp only [if_pos h4]; exact Or.inl ⟨rfl, rfl⟩
    simp only [if_neg h4]; exact Or.inr (Or.inl ⟨rfl, rfl⟩)

/-! ### What the composed operations leave -/

/-- All that taking a key does. -/
theorem takeKey_eq (s : State) :
    s.takeKey = { s with
      trace := s.trace ++ (if s.inputs.keyValid = true then [.keyTaken s.inputs.keyByte] else [])
      loc := { s.loc with kc := s.key.1, quit := s.key.2 } } := by
  unfold State.takeKey
  split
  · rfl
  · simp only [List.append_nil]; rfl

/-- All that an INPUT cycle does after the key is decoded. -/
theorem inputCycle_eq (s : State) :
    s.inputCycle = { s with
      value := counterUpdate s.key.1 (frameEdges s.inputs s.prev) s.value
      prev := s.framePrev
      phase := .digit
      k := 0
      cnt := 0
      we := false
      trace := s.trace ++ [.btnSampled (sampleOf s.inputs)]
      loc := { s.loc with e := frameEdges s.inputs s.prev } } := by
  unfold State.inputCycle State.sample State.framePrev frameEdges sampleOf
  split
  · rfl
  · simp [State.failedSample, State.latchEdges, State.emit, State.updateCounter, State.loadValue, State.enterDigits]

/-- All that the quit transition does after the key is decoded. -/
theorem quitFrame_eq (s : State) :
    s.quitFrame = { s with
      run := .terminated
      disp := 0x0000
      we := true
      trace := s.trace ++ [.btnSampled (sampleOf s.inputs), .dispWrite 0x0000, .halt 0] } := by
  simp [State.quitFrame, State.writeDisplay, State.emit]

/-- All that writing a digit does. -/
theorem writeDigit_eq (s : State) :
    s.writeDigit = { s with
      disp := digitWord s.cfg s.value s.k
      we := true
      trace := s.trace ++ [.dispWrite (digitWord s.cfg s.value s.k)]
      loc := { s.loc with pat := encodeDigit s.cfg (digit s.value s.k) } } := rfl

/-! ### Words -/

theorem inc_toNat (v : CounterValue) : (inc v).toNat = (v.toNat + 1) % 10000 := by
  unfold inc; rw [BitVec.toNat_ofNat]; omega

theorem dec_toNat (v : CounterValue) : (dec v).toNat = (v.toNat + 9999) % 10000 := by
  unfold dec; rw [BitVec.toNat_ofNat]; omega

theorem applyCmd_le (c : Cmd) {v : CounterValue} (h : v.toNat ≤ 9999) : (applyCmd c v).toNat ≤ 9999 := by
  cases c
  · exact h
  · have := inc_toNat v; simp only [applyCmd]; omega
  · have := dec_toNat v; simp only [applyCmd]; omega
  · simp [applyCmd]

theorem counterUpdate_le (kc : Cmd) (e : Byte) {v : CounterValue} (h : v.toNat ≤ 9999) :
    (counterUpdate kc e v).toNat ≤ 9999 := by
  have h1 := applyCmd_le kc h
  unfold counterUpdate applyDown applyUp
  split <;> split
  · rw [dec_toNat]; omega
  · rw [dec_toNat]; omega
  · rw [inc_toNat]; omega
  · exact h1

theorem displayWord_reserved (sel : Select) (pat : Pattern) : wordReserved (displayWord sel pat) = 0 := by
  apply BitVec.eq_of_getLsbD_eq
  intro i hi
  have h1 : ¬ 12 + i < 4 := by omega
  have h2 : pat.getLsbD (12 + i - 4) = false := BitVec.getLsbD_of_ge _ _ (by omega)
  have h3 : sel.getLsbD (12 + i) = false := BitVec.getLsbD_of_ge _ _ (by omega)
  simp [wordReserved, displayWord, h1, h2, h3]

theorem displayWord_sel (sel : Select) (pat : Pattern) : wordSel (displayWord sel pat) = sel := by
  apply BitVec.eq_of_getLsbD_eq
  intro i hi
  have : i < 16 := by omega
  simp [wordSel, displayWord, hi, this]

theorem displayWord_pat (sel : Select) (pat : Pattern) : wordPat (displayWord sel pat) = pat := by
  apply BitVec.eq_of_getLsbD_eq
  intro i hi
  have h1 : 4 + i < 16 := by omega
  simp [wordPat, displayWord, hi, h1]

theorem selectOf_oneHot {c : Config} (h : c.Valid) (k : BitVec 2) : selectOf c k ∈ oneHotSelects := by
  apply h.2.2.2
  exact Vector.mem_toList_iff.mpr (Vector.getElem_mem _)

/-! ### Invariants -/

theorem beginEdge_inv {s : State} (h : s.Inv) : s.beginEdge.Inv := by
  obtain ⟨h1, h2, h3, h4, h5, h6⟩ := h
  exact ⟨h1, h2, h3, h4, h5, fun hr => ⟨(h6 hr).1, (h6 hr).2.1, (h6 hr).2.2.1, rfl⟩⟩

theorem endEdge_inv {s : State} (h : s.Inv) : s.endEdge.Inv := h

theorem writeDigit_inv {s : State} (hv : s.cfg.Valid) (h : s.Inv) (hd : s.inDigit = true) : s.writeDigit.Inv := by
  obtain ⟨h1, h2, h3, h4, -, -⟩ := h
  have hr : s.run = .running := by simp [State.inDigit] at hd; exact hd.1
  refine ⟨h1, h2, h3, h4, ⟨displayWord_reserved _ _, Or.inr ?_⟩, fun hi => ?_⟩
  · exact (displayWord_sel _ _).symm ▸ selectOf_oneHot hv _
  · rw [show s.writeDigit.run = s.run from rfl, hr] at hi; cases hi

theorem resetRegisters_inv {s : State} (h : s.cfg.Valid) : s.resetRegisters.Inv :=
  ⟨Nat.zero_le _, h.1, fun _ => ⟨rfl, rfl⟩, fun _ => ⟨rfl, rfl, rfl⟩, ⟨by rw [State.resetRegisters_disp]; decide, Or.inl (by rw [State.resetRegisters_disp]; decide)⟩,
    fun _ => ⟨rfl, rfl, rfl, rfl⟩⟩

end Sys2Proof.Machine
end

