-- ==== Sys2Proof/Laws/Exec.lean ====
section
/-! SUPPORT. Each instruction as the rule it is, and the whole INPUT cycle as its key row. -/

namespace Sys2Proof.Machine

variable (s : State)

theorem exec_keyU : exec .keyU s =
    rule s (s.inInput && decide (s.keyRow = .keyU)) fun s => s.takeKey.inputCycle := rfl

theorem exec_keyD : exec .keyD s =
    rule s (s.inInput && decide (s.keyRow = .keyD)) fun s => s.takeKey.inputCycle := rfl

theorem exec_keyP : exec .keyP s =
    rule s (s.inInput && decide (s.keyRow = .keyP)) fun s => s.takeKey.inputCycle := rfl

theorem exec_keyQ : exec .keyQ s =
    rule s (s.inInput && decide (s.keyRow = .keyQ)) fun s => s.takeKey.quitFrame := rfl

theorem exec_keyOther (b : Byte) : exec (.keyOther b) s =
    rule s (s.inInput && decide (s.keyRow = .keyOther b)) fun s => s.takeKey.inputCycle := rfl

theorem exec_keyNone : exec .keyNone s =
    rule s (s.inInput && decide (s.keyRow = .keyNone)) fun s => s.takeKey.inputCycle := rfl

theorem exec_btnSample (b : Byte) : exec (.btnSample b) s =
    rule s (s.takesInput && decide (s.btnRow = .btnSample b)) fun s => s.goodSample b := rfl

theorem exec_readError : exec .readError s =
    rule s (s.takesInput && decide (s.btnRow = .readError)) State.failedSample := rfl

theorem exec_btnUp : exec .btnUp s =
    rule s (s.takesInput && s.loc.e.getLsbD 0) fun s => s.loadValue (inc s.value) := rfl

theorem exec_btnDown : exec .btnDown s =
    rule s (s.takesInput && s.loc.e.getLsbD 1) fun s => s.loadValue (dec s.value) := rfl

theorem exec_cmdNone : exec .cmdNone s =
    rule s s.takesInput fun s => s.loadValue (applyCmd .none s.value) := rfl

theorem exec_cmdInc : exec .cmdInc s =
    rule s s.takesInput fun s => s.loadValue (applyCmd .inc s.value) := rfl

theorem exec_cmdDec : exec .cmdDec s =
    rule s s.takesInput fun s => s.loadValue (applyCmd .dec s.value) := rfl

theorem exec_cmdRst : exec .cmdRst s =
    rule s s.takesInput fun s => s.loadValue (applyCmd .rst s.value) := rfl

theorem exec_init : exec .init s =
    rule s (decide (s.run = .init)) State.startUp := rfl

theorem exec_halted : exec .halted s =
    rule s s.isHalted State.hold := rfl

theorem exec_inputCycle : exec .inputCycle s =
    rule s s.takesInput State.inputCycle := rfl

theorem exec_digitWrite : exec .digitWrite s =
    rule s (s.inDigit && decide (s.cnt = 0)) State.writeDigit := rfl

theorem exec_dwellStep : exec .dwellStep s =
    rule s (s.inDigit && decide (s.cnt < s.cfg.dwellCycles - 1)) State.stepDwell := rfl

theorem exec_digitAdvance : exec .digitAdvance s =
    rule s (s.inDigit && decide (s.cnt = s.cfg.dwellCycles - 1)) State.advanceDigit := rfl

theorem exec_detect (cur : Byte) : exec (.detect cur) s =
    rule s true fun s => s.latchEdges (detectEdges cur s.prev) := rfl

theorem exec_counterUpdate (kc : Cmd) : exec (.counterUpdate kc) s =
    rule s s.takesInput fun s => s.updateCounter kc := rfl

theorem exec_keyDecode (b : Byte) : exec (.keyDecode b) s =
    rule s (s.inInput && decide (s.inputs.keyByte = b)) State.takeKey := rfl

theorem exec_reset (h : s.cfg.Valid) : exec .reset s = .next s.resetRegisters := if_pos h

theorem exec_encode (d : BitVec 4) (h : d.toNat < 10) : exec (.encode d) s =
    rule s true fun s => s.encodeAt ⟨d.toNat, h⟩ := dif_pos h

theorem exec_encode_refused (d : BitVec 4) (h : ¬ d.toNat < 10) : exec (.encode d) s = .refused .digitOutOfRange := dif_neg h

variable {s}

/-- Taking a key leaves the ports as they are. -/
theorem takeKey_inputs (s : State) : s.takeKey.inputs = s.inputs := by
  rw [takeKey_eq]; exact inputs_of_stim rfl rfl

/-- All that the INPUT cycle of a key that does not quit does. -/
theorem takeKey_inputCycle (s : State) (h : s.key.2 = false) :
    s.takeKey.inputCycle =
      s.afterInput s.key.1 (if s.inputs.keyValid = true then [.keyTaken s.inputs.keyByte] else []) := by
  have hk : s.takeKey.key = s.key := by unfold State.key; rw [takeKey_inputs]
  rw [inputCycle_eq, hk, State.framePrev, takeKey_inputs, takeKey_eq, h]
  simp only [State.afterInput, State.framePrev, List.append_assoc]

/-- All that the INPUT cycle of the quit key does. -/
theorem takeKey_quitFrame (s : State) :
    s.takeKey.quitFrame = { s with
      run := .terminated
      disp := 0x0000
      we := true
      trace := s.trace ++ ((if s.inputs.keyValid = true then [.keyTaken s.inputs.keyByte] else []) ++
        [.btnSampled (sampleOf s.inputs), .dispWrite 0x0000, .halt 0])
      loc := { s.loc with kc := s.key.1, quit := s.key.2 } } := by
  rw [quitFrame_eq, takeKey_inputs, takeKey_eq]
  simp only [List.append_assoc]

/-- The key row of an INPUT cycle: the quit transition for a quit, INPUT_CYCLE for every other key. -/
theorem exec_keyRow (hv : s.cfg.Valid) (hi : s.Inv) (h : s.inInput = true) :
    exec s.keyRow s = .next (if s.key.2 = true then s.takeKey.quitFrame else s.takeKey.inputCycle) := by
  rcases key_of_keyRow s with ⟨hk, hq⟩ | ⟨hk, hq⟩ | ⟨hk, hq⟩ | ⟨hk, hq⟩ | ⟨hk, hq⟩ | ⟨hk, hq⟩ <;> rw [hk, hq]
  · rw [exec_keyU]; exact rule_fires hv hi _ (by rw [h, hk]; simp)
  · rw [exec_keyD]; exact rule_fires hv hi _ (by rw [h, hk]; simp)
  · rw [exec_keyP]; exact rule_fires hv hi _ (by rw [h, hk]; simp)
  · rw [exec_keyQ]; exact rule_fires hv hi _ (by rw [h, hk]; simp)
  · rw [exec_keyOther]; exact rule_fires hv hi _ (by rw [h, hk]; simp)
  · rw [exec_keyNone]; exact rule_fires hv hi _ (by rw [h, hk]; simp)

/-! ### Key offers -/

/-- A rule over an operation that keeps the offer keeps it. -/
theorem rule_offer {s t : State} {fires : Bool} {f : State → State} (hf : (f s).offer = s.offer) (h : rule s fires f = .next t) :
    t.offer = s.offer := by
  obtain ⟨-, -, rfl⟩ := rule_next h
  split
  · exact hf
  · rfl

theorem takeKey_offer (s : State) : s.takeKey.offer = s.offer := by rw [takeKey_eq]

theorem inputCycle_offer (s : State) : s.inputCycle.offer = s.offer := by rw [inputCycle_eq]

theorem keyCycle_offer (s : State) : s.takeKey.inputCycle.offer = s.offer := by rw [inputCycle_offer, takeKey_offer]

/-- No instruction makes or ends a key offer. -/
theorem exec_offer {i : Instr} {s t : State} (h : exec i s = .next t) : t.offer = s.offer := by
  cases i with
  | keyU => rw [exec_keyU] at h; refine rule_offer ?_ h; exact keyCycle_offer s
  | keyD => rw [exec_keyD] at h; refine rule_offer ?_ h; exact keyCycle_offer s
  | keyP => rw [exec_keyP] at h; refine rule_offer ?_ h; exact keyCycle_offer s
  | keyQ => rw [exec_keyQ] at h; refine rule_offer ?_ h; rw [takeKey_quitFrame]
  | keyOther b => rw [exec_keyOther] at h; refine rule_offer ?_ h; exact keyCycle_offer s
  | keyNone => rw [exec_keyNone] at h; refine rule_offer ?_ h; exact keyCycle_offer s
  | btnSample b => rw [exec_btnSample] at h; refine rule_offer ?_ h; simp
  | readError => rw [exec_readError] at h; refine rule_offer ?_ h; simp
  | btnUp => rw [exec_btnUp] at h; refine rule_offer ?_ h; simp
  | btnDown => rw [exec_btnDown] at h; refine rule_offer ?_ h; simp
  | cmdNone => rw [exec_cmdNone] at h; refine rule_offer ?_ h; simp
  | cmdInc => rw [exec_cmdInc] at h; refine rule_offer ?_ h; simp
  | cmdDec => rw [exec_cmdDec] at h; refine rule_offer ?_ h; simp
  | cmdRst => rw [exec_cmdRst] at h; refine rule_offer ?_ h; simp
  | reset =>
    by_cases hv : s.cfg.Valid
    · rw [exec_reset s hv] at h; cases h; rfl
    · rw [show exec .reset s = .refused .invalidConfiguration from if_neg hv] at h; cases h
  | init => rw [exec_init] at h; refine rule_offer ?_ h; unfold State.startUp; split <;> rfl
  | halted => rw [exec_halted] at h; refine rule_offer ?_ h; simp
  | inputCycle => rw [exec_inputCycle] at h; refine rule_offer ?_ h; exact inputCycle_offer s
  | digitWrite => rw [exec_digitWrite] at h; refine rule_offer ?_ h; rw [writeDigit_eq]
  | dwellStep => rw [exec_dwellStep] at h; refine rule_offer ?_ h; simp
  | digitAdvance => rw [exec_digitAdvance] at h; refine rule_offer ?_ h; unfold State.advanceDigit; split <;> rfl
  | encode d =>
    by_cases hd : d.toNat < 10
    · rw [exec_encode s d hd] at h; refine rule_offer ?_ h; simp
    · rw [exec_encode_refused s d hd] at h; cases h
  | detect cur => rw [exec_detect] at h; refine rule_offer ?_ h; simp
  | counterUpdate kc => rw [exec_counterUpdate] at h; refine rule_offer ?_ h; simp
  | keyDecode b => rw [exec_keyDecode] at h; refine rule_offer ?_ h; exact takeKey_offer s

theorem runRules_offer {is : List Instr} {s t : State} (h : runRules is s = .next t) : t.offer = s.offer := by
  induction is generalizing s with
  | nil => cases h; rfl
  | cons i is ih =>
    obtain ⟨u, hu, ht⟩ := andThen_next h
    exact (ih ht).trans (exec_offer hu)

/-- What an edge leaves on offer: the byte on the key port that it did not take. -/
theorem step_offer {s t : State} (h : step s = .next t) : t.offer = s.untaken := by
  obtain ⟨-, -, -, u, hu, rfl⟩ := edge_next h
  exact runRules_offer hu

/-- After an edge that takes the key ports' byte nothing is on offer, so the next edge finds its offer held. -/
theorem offerHeld_of_keyRdy {s t : State} (h : step s = .next t) (hk : s.outputs.keyRdy = true) : t.offerHeld = true := by
  rw [offerHeld_iff, step_offer h]
  intro b hb
  rw [untaken_eq_some, hk] at hb
  exact absurd hb.2.1 (by decide)

/-- After any edge, a source that holds its offers over it has the next edge find them held. -/
theorem offerHeld_of_holdsOffers {s t : State} (h : step s = .next t) (ht : t.inputs = s.inputAt 1) (hh : s.HoldsOffers 0 1) :
    t.offerHeld = true := by
  rw [offerHeld_iff, step_offer h]
  intro b hb
  obtain ⟨hv, -, rfl⟩ := (untaken_eq_some s b).1 hb
  rw [ht]
  exact hh 0 (by decide) (by decide) hv

end Sys2Proof.Machine
end

