-- ==== Sys2Proof/Laws/PerInstr.lean ====
section
/-! SUPPORT. The statement made of every instruction: its word fits the format of its slot (30_encoding.md R51). -/

namespace Sys2Proof.Laws.EncodingFits

/-- The word of an instruction has no bit above the width of the format read at its slot. -/
def Statement (i : Instr) : Prop := (encodeWord i).2.toNat < 2 ^ (encodeWord i).1.width

theorem keyU : Statement .keyU := by unfold Statement; decide

theorem keyD : Statement .keyD := by unfold Statement; decide

theorem keyP : Statement .keyP := by unfold Statement; decide

theorem keyQ : Statement .keyQ := by unfold Statement; decide

theorem keyOther (keyByte : Byte) : Statement (.keyOther keyByte) := by unfold Statement; revert keyByte; decide

theorem keyNone : Statement .keyNone := by unfold Statement; decide

theorem btnSample (btn : Byte) : Statement (.btnSample btn) := by unfold Statement; revert btn; decide

theorem readError : Statement .readError := by unfold Statement; decide

theorem btnUp : Statement .btnUp := by unfold Statement; decide

theorem btnDown : Statement .btnDown := by unfold Statement; decide

theorem cmdNone : Statement .cmdNone := by unfold Statement; decide

theorem cmdInc : Statement .cmdInc := by unfold Statement; decide

theorem cmdDec : Statement .cmdDec := by unfold Statement; decide

theorem cmdRst : Statement .cmdRst := by unfold Statement; decide

theorem reset : Statement .reset := by unfold Statement; decide

theorem init : Statement .init := by unfold Statement; decide

theorem halted : Statement .halted := by unfold Statement; decide

theorem inputCycle : Statement .inputCycle := by unfold Statement; decide

theorem digitWrite : Statement .digitWrite := by unfold Statement; decide

theorem dwellStep : Statement .dwellStep := by unfold Statement; decide

theorem digitAdvance : Statement .digitAdvance := by unfold Statement; decide

theorem encode (d : BitVec 4) : Statement (.encode d) := by unfold Statement; revert d; decide

theorem detect (cur : Byte) : Statement (.detect cur) := by unfold Statement; revert cur; decide

theorem counterUpdate (kc : Cmd) : Statement (.counterUpdate kc) := by unfold Statement; cases kc <;> decide

theorem keyDecode (keyByte : Byte) : Statement (.keyDecode keyByte) := by unfold Statement; revert keyByte; decide

end Sys2Proof.Laws.EncodingFits
end

