-- ==== Sys2Proof/Laws/Run.lean ====
section
/-! SUPPORT. Runs of several edges: one edge and the rest, two runs after one another, and the host's run. -/

namespace Sys2Proof.Machine

@[simp] theorem runFor_zero (s : State) : runFor 0 s = .next s := rfl

theorem runFor_succ (n : Nat) (s : State) : runFor (n + 1) s = andThen (step s) (runFor n) := rfl

theorem run_of_next {M : Host.Core} {n : Nat} {s t : M.State} (h : M.step s = .next t) : M.run (n + 1) s = M.run n t := by
  simp only [Host.Core.run, h]

theorem run_of_fault {M : Host.Core} {n : Nat} {s : M.State} {r : M.Fault} (h : M.step s = .fault r) :
    M.run (n + 1) s = .fault r := by
  simp only [Host.Core.run, h]

theorem run_of_refused {M : Host.Core} {n : Nat} {s : M.State} {r : M.Refusal} (h : M.step s = .refused r) :
    M.run (n + 1) s = .refused r := by
  simp only [Host.Core.run, h]

/-- The host's run of the machine is `runFor`. -/
theorem run_eq_runFor (n : Nat) (s : State) : Host.Core.run Sys2Proof.core n s = runFor n s := by
  induction n generalizing s with
  | zero => rfl
  | succ n ih =>
    rw [runFor_succ]
    cases h : step s with
    | next t => exact (run_of_next (M := Sys2Proof.core) h).trans (ih t)
    | fault r => exact run_of_fault (M := Sys2Proof.core) h
    | refused r => exact run_of_refused (M := Sys2Proof.core) h

/-- Two runs one after the other. -/
theorem runFor_add (m n : Nat) (s : State) : runFor (m + n) s = andThen (runFor m s) (runFor n) := by
  induction m generalizing s with
  | zero => rw [Nat.zero_add]; rfl
  | succ m ih =>
    rw [Nat.add_right_comm, runFor_succ, runFor_succ]
    cases step s with
    | next t => exact ih t
    | fault r => rfl
    | refused r => rfl

/-! ### The source's duty over several edges -/

theorem holdsOffers_mono {s : State} {a b c d : Nat} (h : s.HoldsOffers a b) (ha : a ≤ c) (hd : d ≤ b) : s.HoldsOffers c d :=
  fun j hj hc => h j (by omega) (by omega)

/-- The duty of a state whose inputs are those of another `n` edges later. -/
theorem holdsOffers_shift {s t : State} {n a b : Nat} (ht : ∀ j, t.inputAt j = s.inputAt (j + n))
    (h : s.HoldsOffers (a + n) (b + n)) : t.HoldsOffers a b := by
  intro j hj ha hk
  rw [ht] at hk ⊢
  rw [ht, Nat.add_right_comm]
  exact h (j + n) (by omega) (by omega) hk

end Sys2Proof.Machine
end

