-- ==== Sys2Proof/Tests/Slice0.lean ====
section
/-! SUPPORT. The model's own tests. Expected results are those of 95_test_vectors.md (named by their number there) or worked by hand from
the rule named. A `witness_` theorem shows that the hypotheses of the statement of that name can be met, clause by clause. -/

namespace Sys2Proof.Tests

open Sys2Proof.Machine

/-! ### Helpers -/

/-- A field of the next state, where the outcome has one. -/
def field {α : Type} (o : Result) (f : State → α) : Option α :=
  match o with
  | .next s => some (f s)
  | .fault _ => none
  | .refused _ => none

/-- A field of the next state shows that there is one. -/
theorem next_of_field {α : Type} {o : Result} {f : State → α} {a : α} (h : field o f = some a) :
    ∃ t, o = .next t ∧ f t = a := by
  cases o with
  | next t => exact ⟨t, rfl, by simpa [field] using h⟩
  | fault r => simp [field] at h
  | refused r => simp [field] at h

/-- The spec's tables with `DWELL_CYCLES = d`. -/
def config (d : Nat) : Config := { dwellCycles := d, fClk := 0, segTable := standardSegTable, selMap := standardSelMap }

/-- The ports of a cycle in which nothing is offered, with `rst` and `dev_ok`. -/
def ports (rst devOk : Bool) : Inputs := { idleInputs with rst := rst, devOk := devOk }

/-- RESET_STATE with `DWELL_CYCLES = 2` and the ports of the coming edges. -/
def inInit (stim : List Inputs) : State := { State.reset with cfg := config 2, stim := stim }

/-- An INPUT cycle of a RUNNING frame with the ports of a FRAME line. -/
def inFrame (v : CounterValue) (prev : Byte) (key btn : Option Byte) : State :=
  { inInit [frameInputs ⟨key, btn⟩] with value := v, prev := prev, run := .running }

/-- A DIGIT cycle with idle ports. -/
def inDwell (d : Nat) (v : CounterValue) (k : BitVec 2) (cnt : Nat) : State :=
  { inInit [idleInputs] with cfg := config d, value := v, run := .running, phase := .digit, k := k, cnt := cnt }

/-- A DIGIT cycle before which the byte `b` was offered, with the ports of a FRAME line. -/
def offered (b : Byte) (key : Option Byte) : State :=
  { inDwell 2 5 1 0 with offer := some b, stim := [frameInputs ⟨key, none⟩] }

/-- A halt state with idle ports. -/
def halted (run : RunState) : State := { inInit [idleInputs] with run := run, we := true }

/-! ### Well-formedness -/

theorem test_keyOther_of_a_command_byte_is_ill_formed :
    (Instr.keyOther 0x75).wellFormed = false ∧ (Instr.keyOther 0x64).wellFormed = false ∧
    (Instr.keyOther 0x70).wellFormed = false ∧ (Instr.keyOther 0x71).wellFormed = false ∧
    (Instr.keyOther 0x55).wellFormed = true := by decide

theorem test_encode_of_ten_is_ill_formed :
    (Instr.encode 10).wellFormed = false ∧ (Instr.encode 15).wellFormed = false ∧ (Instr.encode 9).wellFormed = true := by decide

/-! ### Decoding: words written from the spec's encodings -/

/-- FRAME key='u' btn=0x01 (2.7): the key half and the button half. -/
theorem test_decode_keyU : decode .frameKey 0x01010175 = .ok .keyU := by decide
theorem test_decode_btnSample : decode .frameBtn 0x01010175 = .ok (.btnSample 0x01) := by decide
/-- FRAME key='d' btn=0x00 (2.7). -/
theorem test_decode_keyD : decode .frameKey 0x01000164 = .ok .keyD := by decide
/-- FRAME key='p' btn=0x02 (2.7). -/
theorem test_decode_keyP : decode .frameKey 0x01020170 = .ok .keyP := by decide
/-- FRAME key='q' btn=0x01 (2.7). -/
theorem test_decode_keyQ : decode .frameKey 0x01010171 = .ok .keyQ := by decide
/-- FRAME key='x' btn=0x02 (2.7); 0xF5 is 'u' with bit 7 set (KD9). -/
theorem test_decode_keyOther :
    decode .frameKey 0x01020178 = .ok (.keyOther 0x78) ∧ decode .frameKey 0x000001F5 = .ok (.keyOther 0xF5) := by decide
/-- FRAME key=- btn=0x03 (2.7); the byte of no offer is ignored (KD11). -/
theorem test_decode_keyNone :
    decode .frameKey 0x01030000 = .ok .keyNone ∧ decode .frameKey 0x00000075 = .ok .keyNone := by decide
/-- FRAME key=0xFF btn=ERR (2.7). -/
theorem test_decode_readError : decode .frameBtn 0x000001FF = .ok .readError := by decide
/-- Edge mask bits 0 and 1 (30_encoding.md R63). -/
theorem test_decode_btnUp : decode .edgeUp 0b00000001 = .ok .btnUp := by decide
theorem test_decode_btnDown : decode .edgeDown 0b00000010 = .ok .btnDown := by decide
/-- CMD codes (30_encoding.md R62). -/
theorem test_decode_cmdNone : decode .command 0b00 = .ok .cmdNone := by decide
theorem test_decode_cmdInc : decode .command 0b01 = .ok .cmdInc := by decide
theorem test_decode_cmdDec : decode .command 0b10 = .ok .cmdDec := by decide
theorem test_decode_cmdRst : decode .command 0b11 = .ok .cmdRst := by decide
/-- SEQ words (2.6). -/
theorem test_decode_reset : decode .cycle 0b101110 = .ok .reset := by decide
theorem test_decode_init : decode .cycle 0b000010 = .ok .init := by decide
theorem test_decode_halted : decode .cycle 0b010010 = .ok .halted ∧ decode .cycle 0b011010 = .ok .halted := by decide
theorem test_decode_inputCycle : decode .cycle 0b001010 = .ok .inputCycle := by decide
theorem test_decode_digitWrite :
    decode .digitWrite 0b001110 = .ok .digitWrite ∧ decode .digitWrite 0b001111 = .ok .digitWrite := by decide
theorem test_decode_dwellStep : decode .cycle 0b001110 = .ok .dwellStep := by decide
theorem test_decode_digitAdvance : decode .cycle 0b001101 = .ok .digitAdvance := by decide
/-- DIGIT, BTN, CMD and KEY words as operands (30_encoding.md R51). -/
theorem test_decode_encode : decode .encoder 0b1001 = .ok (.encode 9) := by decide
theorem test_decode_detect : decode .detector 0b00000011 = .ok (.detect 0x03) := by decide
theorem test_decode_counterUpdate : decode .counter 0b10 = .ok (.counterUpdate .dec) := by decide
theorem test_decode_keyDecode : decode .keyDecoder 0x71 = .ok (.keyDecode 0x71) := by decide

theorem test_decode_refuses_by_name :
    decode .frameKey 0x00000200 = .error .reservedBits ∧ decode .frameBtn 0x02000000 = .error .reservedBits ∧
    decode .command 0b100 = .error .reservedBits ∧ decode .edgeUp 0b10 = .error .noCommand ∧
    decode .digitWrite 0b001101 = .error .noCommand ∧ decode .encoder 0b1010 = .error .digitOutOfRange := by decide

theorem test_table_words :
    decodeTableWord 16 0x0175 = some .keyU ∧ decodeTableWord 32 0x01050000 = some (.btnSample 0x05) ∧
    decodeTableWord 8 0x0E = some .digitWrite ∧ decodeTableWord 8 0x3 = some .cmdRst ∧
    decodeTableWord 8 0x71 = some (.keyDecode 0x71) ∧ decodeTableWord 0 0 = some (.encode 0) := by decide

/-! ### One step or one instruction each -/

/-- P8 line 1, and KEY_U with an UP edge: `inc(inc(v))`. -/
theorem test_keyU : field (exec .keyU (inFrame 9999 0x00 (some 0x75) (some 0x00))) (·.value) = some 0 ∧
    field (exec .keyU (inFrame 41 0x00 (some 0x75) (some 0x01))) (·.value) = some 43 := by decide
/-- P2 line 1. -/
theorem test_keyD : field (exec .keyD (inFrame 0 0x00 (some 0x64) (some 0x00))) (·.value) = some 9999 := by decide
/-- P2 line 5: RST, then the DOWN edge. -/
theorem test_keyP : field (exec .keyP (inFrame 0 0x00 (some 0x70) (some 0x02))) (fun s => (s.value, s.prev)) =
    some (9999, 0x02) := by decide
/-- Q1: value 7777 and prev 0x00 stay, the blank word is written, the block halts. -/
theorem test_keyQ : field (step (inFrame 7777 0x00 (some 0x71) (some 0x01))) (fun s => (s.value, s.prev, s.disp, s.outputs.halted)) =
    some (7777, 0x00, 0x0000, true) := by decide
theorem test_keyQ_events : field (step (inFrame 7777 0x00 (some 0x71) (some 0x01))) (·.trace) =
    some [.keyTaken 0x71, .btnSampled (some 0x01), .dispWrite 0x0000, .halt 0] := by decide
/-- P3 line 8: 'x' is taken and ignored, the DOWN edge applies. -/
theorem test_keyOther : field (step (inFrame 43 0x00 (some 0x78) (some 0x02))) (fun s => (s.value, s.trace)) =
    some (42, [.keyTaken 0x78, .btnSampled (some 0x02)]) := by decide
/-- P3 line 2. -/
theorem test_keyNone : field (step (inFrame 42 0x00 none (some 0x01))) (fun s => (s.value, s.prev)) = some (43, 0x01) := by decide
/-- S4: the first sample has the edge, all eight bits go to prev. -/
theorem test_btnSample : field (exec (.btnSample 0x81) (inFrame 5 0x00 none (some 0x81))) (fun s => (s.loc.e, s.prev, s.value)) =
    some (0x81, 0x81, 5) := by decide
/-- X4: the key command is applied although the read failed. -/
theorem test_readError : field (step (inFrame 3 0x01 (some 0x75) none)) (fun s => (s.value, s.prev)) = some (4, 0x01) := by decide
/-- CT15: 9999 and an UP edge. -/
theorem test_btnUp : field (exec .btnUp { inFrame 9999 0x01 none (some 0x01) with loc := { Locals.idle with e := 0x01 } })
    (·.value) = some 0 := by decide
/-- CT16: 0 and a DOWN edge. -/
theorem test_btnDown : field (exec .btnDown { inFrame 0 0x02 none (some 0x02) with loc := { Locals.idle with e := 0x02 } })
    (·.value) = some 9999 := by decide
/-- S1. -/
theorem test_cmdNone : field (exec .cmdNone (inFrame 42 0x00 none none)) (·.value) = some 42 := by decide
theorem test_cmdInc : field (exec .cmdInc (inFrame 42 0x00 none none)) (·.value) = some 43 := by decide
theorem test_cmdDec : field (exec .cmdDec (inFrame 0 0x00 none none)) (·.value) = some 9999 := by decide
theorem test_cmdRst : field (exec .cmdRst (inFrame 7777 0x00 none none)) (·.value) = some 0 := by decide
/-- RS1. -/
theorem test_reset : field (step { inDwell 2 43 2 1 with disp := 0x0B04, stim := [ports true false] })
    (fun s => (s.run, s.phase, s.k, s.cnt, s.value, s.disp)) = some (.init, .input, 0, 0, 0, 0x0000) := by decide
/-- 70_reset_and_hazards.md R144: in any state, one outside the invariants too. -/
theorem test_reset_in_any_state : field (step { inDwell 2 10000 2 7 with stim := [ports true false] })
    (fun s => (s.run, s.cnt, s.value)) = some (.init, 0, 0) := by decide
/-- RS2 and RS3. -/
theorem test_init : field (step (inInit [ports false true])) (fun s => (s.run, s.outputs.keyRdy, s.trace)) =
    some (.running, true, []) := by decide
theorem test_init_failure : field (step (inInit [ports false false])) (fun s => (s.run, s.outputs.exitErr, s.trace)) =
    some (.failed, true, [.halt 1]) := by decide
/-- P5 step 12, P6 step 2. -/
theorem test_halted : field (step (halted .terminated)) (fun s => (s.run, s.we)) = some (.terminated, false) ∧
    field (step (halted .failed)) (fun s => (s.run, s.we)) = some (.failed, false) := by decide
/-- CT14 with value 7777: RST, UP, DOWN. -/
theorem test_inputCycle : field (exec .inputCycle (inFrame 7777 0x00 (some 0x70) (some 0x03))) (fun s => (s.value, s.phase)) =
    some (0, .digit) := by decide
/-- P5 step 9: the ones digit of 1. -/
theorem test_digitWrite : field (step (inDwell 2 1 3 0)) (fun s => (s.disp, s.we, s.cnt)) = some (0x0F98, true, 1) := by decide
/-- P5 steps 3 and 10. -/
theorem test_dwellStep : field (exec .dwellStep (inDwell 2 1 0 0)) (fun s => (s.cnt, s.k)) = some (1, 0) := by decide
theorem test_digitAdvance : field (step (inDwell 2 1 3 1)) (fun s => (s.cnt, s.k, s.phase)) = some (0, 0, .input) := by decide
/-- P7 step 6: with `DWELL_CYCLES = 1` the write and the advance share a cycle. -/
theorem test_dwell_of_one : field (step (inDwell 1 9999 3 0)) (fun s => (s.disp, s.we, s.phase)) = some (0x0908, true, .input) := by decide
/-- 70_reset_and_hazards.md R150: an offer stays while it is not taken, and no step follows where it is withdrawn, changed or withdrawn
at a reset edge. -/
theorem test_offer_held : field (step (offered 0x75 (some 0x75))) (·.offer) = some (some 0x75) ∧
    field (step { inFrame 41 0x00 (some 0x75) none with offer := some 0x75 }) (fun s => (s.value, s.offer)) = some (42, none) := by decide
theorem test_offer_withdrawn : step (offered 0x75 none) = .refused .offerWithdrawn ∧
    step (offered 0x75 (some 0x64)) = .refused .offerWithdrawn ∧
    step { offered 0x75 none with stim := [ports true true] } = .refused .offerWithdrawn :=
  ⟨edge_of_withdrawn (by decide) (by decide), edge_of_withdrawn (by decide) (by decide), edge_of_withdrawn (by decide) (by decide)⟩
/-- EN1. -/
theorem test_encode : field (exec (.encode 4) (inFrame 0 0 none none)) (·.loc.pat) = some 0x99 := by decide
/-- 41_edge_detector.md R80's example. -/
theorem test_detect : field (exec (.detect 0x03) (inFrame 0 0x01 none none)) (·.loc.e) = some 0x02 := by decide
/-- CT13: RST, then DOWN. -/
theorem test_counterUpdate : field (exec (.counterUpdate .rst)
    { inFrame 7777 0x02 none none with loc := { Locals.idle with e := 0x02 } }) (·.value) = some 9999 := by decide
/-- KD4. -/
theorem test_keyDecode : field (exec (.keyDecode 0x71) (inFrame 0 0 (some 0x71) none)) (fun s => (s.loc.kc, s.loc.quit, s.trace)) =
    some (.none, true, [.keyTaken 0x71]) := by decide

/-! ### Witnesses: the statements' hypotheses can be met -/

theorem witness_DecodeInvertsEncode : (Instr.encode 9).wellFormed = true ∧ (Instr.encode 0).wellFormed = true ∧
    (Instr.keyOther 0xFF).wellFormed = true ∧ (Instr.btnSample 0xFF).wellFormed = true := by decide

theorem witness_PseudoLineExpansions : (FrameLine.mk none (some 0x00)).btn = some 0x00 ∧ (FrameLine.mk (some 0x75) (some 0xFF)).btn = some 0xFF :=
  ⟨rfl, rfl⟩

/-- R69 by hand: `B` is 0x00, then 0x01 and 0x03 before the two copies, then 0x03 and, after the FRAME line, 0x05. -/
theorem test_expandProgram : expandProgram [.press 0x01, .repeated 2 (.press 0x02), .frame ⟨some 0x75, some 0x05⟩, .key none, .release 0x04] =
    some [⟨none, some 0x01⟩, ⟨none, some 0x03⟩, ⟨none, some 0x03⟩, ⟨some 0x75, some 0x05⟩, ⟨none, some 0x05⟩, ⟨none, some 0x01⟩] := by decide

theorem witness_EncodeInstruction : (inFrame 0 0 none none).Ready ∧ (0 : BitVec 4).toNat < 10 ∧ (9 : BitVec 4).toNat < 10 := by decide

theorem witness_EncoderRefusesTenToFifteen : 10 ≤ (10 : BitVec 4).toNat ∧ 10 ≤ (15 : BitVec 4).toNat := by decide

theorem witness_PatternDecodeIsInverse : (config 1).Valid ∧ (config 1).segTable.get 4 = 0x99 := by decide

/-- A table with a pattern twice. -/
def brokenTable : State := { inInit [idleInputs] with cfg := { config 1 with segTable := Vector.replicate 10 0xC0 } }

theorem witness_SegmentRoundTrip : (config 1).Valid ∧ ¬ brokenTable.cfg.segTable.toList.Nodup := by decide

theorem witness_DecimalPointNeverLit : (inDwell 2 8 3 0).cfg.segTable = standardSegTable ∧
    ∃ t, step (inDwell 2 8 3 0) = .next t ∧ t.we = true := ⟨rfl, next_of_field (by decide)⟩

theorem witness_CmdIncrement : (inFrame 9999 0 none none).Ready ∧ (inFrame 9999 0 none none).takesInput = true := by decide

theorem witness_CmdDecrement : (inFrame 0 0 none none).Ready ∧ (inFrame 0 0 none none).takesInput = true := by decide

theorem witness_CmdResetValue : (inFrame 7777 0 none none).Ready ∧ (inFrame 7777 0 none none).takesInput = true := by decide

theorem witness_CmdNoneKeepsValue : (inFrame 42 0 none none).Ready ∧ (inFrame 42 0 none none).takesInput = true ∧
    ¬ IsCommandKey 0x55 := by decide

theorem witness_IncDecInverse : (9999 : CounterValue).toNat ≤ 9999 ∧ (0 : CounterValue).toNat ≤ 9999 := by decide

theorem witness_CounterUpdateInstruction :
    (inFrame 9999 0 none (some 0x03)).Ready ∧ (inFrame 9999 0 none (some 0x03)).takesInput = true ∧
    ((∃ t, step (inDwell 2 43 0 0) = .next t ∧ t.value = 43) ∧
      (inDwell 2 43 0 0).inputs.rst = false ∧ (inDwell 2 43 0 0).takesInput = false) :=
  ⟨by decide, by decide, next_of_field (by decide), by decide, by decide⟩

theorem witness_NetEffectOfOneFrame : (9999 : CounterValue).toNat ≤ 9999 ∧ (0 : CounterValue).toNat ≤ 9999 := by decide

theorem witness_DetectInstruction : (inFrame 0 0x01 none none).Ready := by decide

theorem witness_BtnSampleInstruction :
    (inFrame 5 0x00 none (some 0xFF)).Ready ∧ (inFrame 5 0x00 none (some 0xFF)).takesInput = true ∧
    (inFrame 5 0x00 none (some 0xFF)).inputs.btnValid = true ∧ (inFrame 5 0x00 none (some 0xFF)).inputs.rst = false ∧
    (∃ t, step (inFrame 5 0x00 none (some 0xFF)) = .next t ∧ t.prev = 0xFF) ∧
    (∃ t, step (inFrame 5 0x03 none none) = .next t ∧ t.prev = 0x03) ∧ (inFrame 5 0x03 none none).inputs.btnValid = false ∧
    (inFrame 5 0x03 none none).inputs.rst = false :=
  ⟨by decide, by decide, by decide, by decide, next_of_field (by decide), next_of_field (by decide), by decide, by decide⟩

theorem witness_ReadErrorInstruction :
    (inFrame 3 0x01 (some 0x75) none).Ready ∧ (inFrame 3 0x01 (some 0x75) none).takesInput = true ∧
    (inFrame 3 0x01 (some 0x75) none).inputs.btnValid = false ∧ (inFrame 3 0x01 (some 0x75) none).inputs.rst = false ∧
    ∃ t, step (inFrame 3 0x01 (some 0x75) none) = .next t ∧ t.value = 4 :=
  ⟨by decide, by decide, by decide, by decide, next_of_field (by decide)⟩

/-- An INPUT cycle with the edge mask `e` handed on. -/
def withEdges (v : CounterValue) (e : Byte) : State := { inFrame v e none (some e) with loc := { Locals.idle with e := e } }

theorem witness_BtnUpInstruction : (withEdges 9999 0x01).Ready ∧ (withEdges 9999 0x01).takesInput = true ∧
    (withEdges 9999 0x01).loc.e.getLsbD 0 = true ∧ (withEdges 9999 0xFE).Ready ∧ (withEdges 9999 0xFE).takesInput = true ∧
    (withEdges 9999 0xFE).loc.e.getLsbD 0 = false := by and_intros <;> decide

theorem witness_BtnDownInstruction : (withEdges 0 0x02).Ready ∧ (withEdges 0 0x02).takesInput = true ∧
    (withEdges 0 0x02).loc.e.getLsbD 1 = true ∧ (withEdges 0 0xFD).Ready ∧ (withEdges 0 0xFD).takesInput = true ∧
    (withEdges 0 0xFD).loc.e.getLsbD 1 = false := by and_intros <;> decide

/-- An edge with a press of the up button, with it held, with a press of the down button, and of both. -/
theorem witness_presses_at_an_edge :
    (∃ t, step (inFrame 42 0x00 none (some 0x01)) = .next t ∧ t.value = 43) ∧
    (∃ t, step (inFrame 42 0x01 none (some 0x01)) = .next t ∧ t.value = 42) ∧
    (∃ t, step (inFrame 10 0x00 none (some 0x02)) = .next t ∧ t.value = 9) ∧
    (∃ t, step (inFrame 10 0x00 none (some 0x03)) = .next t ∧ t.value = 10) ∧ (inFrame 10 0x00 none (some 0x03)).takesInput = true ∧
    (inFrame 42 0x00 none (some 0x01)).inputs.rst = false ∧ (inFrame 42 0x00 none (some 0x01)).takesInput = true ∧
    (inFrame 42 0x00 none (some 0x01)).inputs.btnValid = true ∧ (inFrame 42 0x00 none (some 0x01)).inputs.btn = 0x01 ∧
    (inFrame 10 0x00 none (some 0x02)).inputs.btn = 0x02 ∧ (inFrame 10 0x00 none (some 0x02)).prev = 0x00 :=
  ⟨next_of_field (by decide), next_of_field (by decide), next_of_field (by decide), next_of_field (by decide), by decide, by decide,
    by decide, by decide, by decide, by decide, by decide⟩

theorem witness_HeldButtonGivesOneEdge : (9999 : CounterValue).toNat ≤ 9999 ∧ (inFrame 42 0x00 none (some 0x01)).inputs.rst = false ∧
    (inFrame 42 0x00 none (some 0x01)).takesInput = true ∧ ∃ t, step (inFrame 42 0x00 none (some 0x01)) = .next t ∧ t.value = 43 :=
  ⟨by decide, by decide, by decide, next_of_field (by decide)⟩

theorem witness_KeyDecodeInstruction : (inFrame 0 0 (some 0xFF) none).Ready ∧ (inFrame 0 0 (some 0xFF) none).inInput = true ∧
    ¬ IsCommandKey 0xFF := by decide

theorem witness_KeyUInstruction : (inFrame 9999 0 (some 0x75) none).Ready ∧ (inFrame 9999 0 (some 0x75) none).inInput = true ∧
    (inFrame 9999 0 (some 0x75) none).inputs.keyValid = true ∧ (inFrame 9999 0 (some 0x75) none).inputs.keyByte = 0x75 := by decide

theorem witness_KeyDInstruction : (inFrame 0 0 (some 0x64) none).Ready ∧ (inFrame 0 0 (some 0x64) none).inInput = true ∧
    (inFrame 0 0 (some 0x64) none).inputs.keyValid = true ∧ (inFrame 0 0 (some 0x64) none).inputs.keyByte = 0x64 := by decide

theorem witness_KeyPInstruction : (inFrame 7777 0 (some 0x70) none).Ready ∧ (inFrame 7777 0 (some 0x70) none).inInput = true ∧
    (inFrame 7777 0 (some 0x70) none).inputs.keyValid = true ∧ (inFrame 7777 0 (some 0x70) none).inputs.keyByte = 0x70 := by decide

theorem witness_KeyQInstruction : (inFrame 7777 0 (some 0x71) (some 0x01)).Ready ∧
    (inFrame 7777 0 (some 0x71) (some 0x01)).inInput = true ∧ (inFrame 7777 0 (some 0x71) (some 0x01)).inputs.keyValid = true ∧
    (inFrame 7777 0 (some 0x71) (some 0x01)).inputs.keyByte = 0x71 := by decide

theorem witness_KeyOtherInstruction : (inFrame 3 0 (some 0x00) none).Ready ∧ (inFrame 3 0 (some 0x00) none).inInput = true ∧
    (inFrame 3 0 (some 0x00) none).inputs.keyValid = true ∧ ¬ IsCommandKey (inFrame 3 0 (some 0x00) none).inputs.keyByte ∧
    (inFrame 3 0 (some 0x00) none).inputs.rst = false := by decide

theorem witness_KeyNoneInstruction : (inFrame 3 0 none none).Ready ∧ (inFrame 3 0 none none).inInput = true ∧
    (inFrame 3 0 none none).inputs.keyValid = false := by decide

/-- An INPUT cycle that a reset edge ends while a key is offered (RS5). -/
def resetWithKey : State := { inFrame 10000 0 none none with stim := [{ ports true false with keyValid := true, keyByte := 0x75 }] }

theorem witness_ResetInstruction : resetWithKey.cfg.Valid ∧ resetWithKey.offerHeld = true ∧ ¬ resetWithKey.Inv ∧ resetWithKey.inputs.rst = true ∧
    resetWithKey.inInput = true ∧ resetWithKey.inputs.keyValid = true ∧ ∃ t, step resetWithKey = .next t ∧ t.value = 0 :=
  ⟨by decide, by decide, by decide, by decide, by decide, by decide, next_of_field (by decide)⟩

theorem witness_InitInstruction : (inInit [ports false true]).Ready ∧ (inInit [ports false true]).run = .init ∧
    (inInit [ports false true]).inputs.devOk = true ∧ (inInit [ports false false]).Ready ∧ (inInit [ports false false]).run = .init ∧
    (inInit [ports false false]).inputs.devOk = false := by and_intros <;> decide

theorem witness_HaltedInstruction : (halted .terminated).Ready ∧ (halted .terminated).isHalted = true ∧
    (halted .terminated).inputs.rst = false ∧ (halted .terminated).offerHeld = true ∧ (halted .failed).Ready ∧ (halted .failed).isHalted = true := by and_intros <;> decide

theorem witness_InputCycleInstruction : (inFrame 7777 0 (some 0x70) (some 0x03)).Ready ∧
    (inFrame 7777 0 (some 0x70) (some 0x03)).inInput = true ∧
    (keydec (inFrame 7777 0 (some 0x70) (some 0x03)).inputs.keyValid (inFrame 7777 0 (some 0x70) (some 0x03)).inputs.keyByte).2 = false := by
  decide

theorem witness_DigitWriteInstruction : (inDwell 2 9999 3 0).Ready ∧ (inDwell 2 9999 3 0).inDigit = true ∧ (inDwell 2 9999 3 0).cnt = 0 ∧
    (inDwell 1 0 0 0).Ready ∧ (inDwell 1 0 0 0).inDigit = true ∧ (inDwell 1 0 0 0).cfg.dwellCycles = 1 ∧
    (inDwell 1 0 0 0).inputs.rst = false := by and_intros <;> decide

theorem witness_DwellStepInstruction : (inDwell 2 1 0 0).Ready ∧ (inDwell 2 1 0 0).inDigit = true ∧
    (inDwell 2 1 0 0).cnt < (inDwell 2 1 0 0).cfg.dwellCycles - 1 ∧ (inDwell 2 1 0 0).inputs.rst = false ∧ (inDwell 3 1 3 1).Ready ∧
    (inDwell 3 1 3 1).cnt < (inDwell 3 1 3 1).cfg.dwellCycles - 1 := by and_intros <;> decide

theorem witness_DigitAdvanceInstruction :
    (inDwell 2 1 2 1).Ready ∧ (inDwell 2 1 2 1).inDigit = true ∧ (inDwell 2 1 2 1).cnt = (inDwell 2 1 2 1).cfg.dwellCycles - 1 ∧
    (inDwell 2 1 2 1).k < 3 ∧ (inDwell 2 1 3 1).Ready ∧ (inDwell 2 1 3 1).cnt = (inDwell 2 1 3 1).cfg.dwellCycles - 1 ∧
    (inDwell 2 1 3 1).k = 3 ∧ (inDwell 1 1 3 0).Ready ∧ (inDwell 1 1 3 0).cfg.dwellCycles = 1 ∧ (inDwell 1 1 3 0).inputs.rst = false := by and_intros <;> decide

/-- One state for each clause: a dwell cycle that writes nothing, an INPUT cycle, and a first cycle of a dwell. -/
theorem witness_StepRunsTheDecodedRules :
    ((inDwell 2 1 3 1).CanStep ∧ decode .cycle ((inDwell 2 1 3 1).cycleSelect.word.zeroExtend 32) = .ok .digitAdvance ∧
      decode .digitWrite ((inDwell 2 1 3 1).cycleSelect.word.zeroExtend 32) = .error .noCommand) ∧
    ((inFrame 0 0 (some 0x75) (some 0x01)).CanStep ∧
      decode .cycle ((inFrame 0 0 (some 0x75) (some 0x01)).cycleSelect.word.zeroExtend 32) = .ok .inputCycle ∧
      decode .frameKey (stimOfInputs (inFrame 0 0 (some 0x75) (some 0x01)).inputs) = .ok .keyU) ∧
    ((inDwell 2 1 3 0).CanStep ∧ decode .digitWrite ((inDwell 2 1 3 0).cycleSelect.word.zeroExtend 32) = .ok .digitWrite ∧
      decode .cycle ((inDwell 2 1 3 0).cycleSelect.word.zeroExtend 32) = .ok .dwellStep) := by and_intros <;> decide

/-- An offer taken, an offer held that waits on, and a reset edge outside the invariants. -/
theorem witness_StepIsTheCycleStep : (inFrame 42 0 (some 0x75) (some 0x01)).CanStep ∧ (offered 0x75 (some 0x75)).CanStep ∧
    resetWithKey.CanStep ∧ ¬ resetWithKey.Inv := by and_intros <;> decide

theorem witness_StepKeepsInvariant : (inFrame 9999 0 (some 0x75) (some 0x01)).Inv ∧
    ∃ t, step (inFrame 9999 0 (some 0x75) (some 0x01)) = .next t ∧ t.value = 1 := ⟨by decide, next_of_field (by decide)⟩

theorem witness_ReachableStatesMeetInvariant : ∃ t, Reachable t ∧ t.run = .running := by
  obtain ⟨t, ht, hr⟩ := next_of_field (o := step (inInit [ports false true]).resetRegisters) (f := (·.run)) (a := .running) (by decide)
  exact ⟨t, .step _ t (.reset _ (by decide)) ht, hr⟩

/-- `DWELL_CYCLES = 0`; a select used twice; an offer withdrawn and one whose byte changed; and a value of 10000. -/
theorem witness_StatesWithoutMeaning : ¬ (config 0).Valid ∧ ¬ ({ config 1 with selMap := #v[1, 1, 4, 8] } : Config).Valid ∧
    ((offered 0x75 none).cfg.Valid ∧ (offered 0x75 none).offer = some 0x75 ∧ (offered 0x75 none).inputs.keyValid = false) ∧
    ((offered 0x75 (some 0x64)).offer = some 0x75 ∧ (offered 0x75 (some 0x64)).inputs.keyByte ≠ 0x75) ∧
    (inFrame 10000 0 none none).offerHeld = true ∧ (inFrame 10000 0 none none).cfg.Valid ∧ ¬ (inFrame 10000 0 none none).Inv ∧ (inFrame 10000 0 none none).inputs.rst = false ∧
    Instr.halted ≠ Instr.reset := by and_intros <;> decide

theorem witness_UnfiredRuleChangesNothing : (inDwell 2 1 0 0).Ready ∧ (inDwell 2 1 0 0).inInput = false ∧
    (inFrame 7777 0 (some 0x71) none).Ready ∧ (inFrame 7777 0 (some 0x71) none).takesInput = false ∧
    (inFrame 7777 0 (some 0x71) none).inDigit = false ∧ (inDwell 2 1 0 0).run ≠ .init ∧ (inDwell 2 1 0 0).isHalted = false ∧
    Instr.keyU ≠ (inFrame 7777 0 (some 0x71) none).keyRow ∧ Instr.keyOther 0x78 ≠ (inFrame 7777 0 (some 0x71) none).keyRow ∧
    (0x75 : Byte) ≠ (inFrame 7777 0 (some 0x71) none).inputs.keyByte ∧
    Instr.btnSample 0x01 ≠ (inFrame 7777 0 (some 0x71) none).btnRow ∧ Instr.readError ≠ (inFrame 1 0 none (some 0x01)).btnRow ∧
    (inFrame 1 0 none (some 0x01)).Ready ∧ (inDwell 2 1 0 1).Ready ∧ (inDwell 2 1 0 1).cnt ≠ 0 ∧
    (inDwell 2 1 0 1).cnt = (inDwell 2 1 0 1).cfg.dwellCycles - 1 ∧ (inDwell 2 1 0 0).cnt ≠ (inDwell 2 1 0 0).cfg.dwellCycles - 1 := by and_intros <;> decide

theorem witness_InputCycleIsItsParts : (inFrame 43 0x01 (some 0x64) (some 0x03)).Ready ∧
    (inFrame 43 0x01 (some 0x64) (some 0x03)).takesInput = true := by decide

theorem witness_RunStateTransitions :
    (∃ t, step (inFrame 1 0 (some 0x71) none) = .next t ∧ t.run = .terminated) ∧
    (∃ t, step (inDwell 2 1 0 0) = .next t ∧ t.run = .running) ∧ (∃ t, step (halted .failed) = .next t ∧ t.run = .failed) ∧
    (∃ t, step (inInit [ports false true]) = .next t ∧ t.run = .running) ∧ (inFrame 1 0 (some 0x71) none).inputs.rst = false :=
  ⟨next_of_field (by decide), next_of_field (by decide), next_of_field (by decide), next_of_field (by decide), by decide⟩

theorem witness_WriteStrobeMarksTransfers : (∃ t, step (inDwell 2 1 3 0) = .next t ∧ t.we = true) ∧
    ∃ t, step (inDwell 2 1 3 1) = .next t ∧ t.we = false := ⟨next_of_field (by decide), next_of_field (by decide)⟩

theorem witness_KeyTakenExactlyByHandshake :
    (∃ t, step (inFrame 1 0 (some 0x78) none) = .next t ∧ keysOf t.trace = [0x78]) ∧ (inFrame 1 0 (some 0x78) none).inputs.rst = false ∧
    (∃ t, step resetWithKey = .next t ∧ keysOf t.trace = []) ∧ resetWithKey.inputs.rst = true :=
  ⟨next_of_field (by decide), by decide, next_of_field (by decide), by decide⟩

/-- Two states and samples that differ in reserved bits only. -/
theorem witness_ReservedButtonBitsHaveNoEffect :
    (inFrame 42 0x00 none (some 0x01)).AgreeButReserved (inFrame 42 0xFC none (some 0xFD)) ∧
    (inFrame 42 0xFC none (some 0xFD)).CanStep ∧ ∃ t, step (inFrame 42 0x00 none (some 0x01)) = .next t ∧ t.value = 43 := by
  refine ⟨⟨rfl, by decide, rfl, fun j => ?_⟩, by decide, next_of_field (by decide)⟩
  cases j with
  | zero => exact ⟨rfl, by decide⟩
  | succ j => exact ⟨rfl, rfl⟩

theorem witness_ErrorEffects :
    ((∃ t, step (inInit [ports false false]) = .next t ∧ t.run = .failed) ∧ (inInit [ports false false]).meets .deviceOpen = true) ∧
    ((∃ t, step (inFrame 3 1 none none) = .next t ∧ t.prev = 1) ∧ (inFrame 3 1 none none).meets .hardwareRead = true) ∧
    ((∃ t, step (inFrame 3 1 (some 0x55) (some 0)) = .next t ∧ t.value = 3) ∧
      (inFrame 3 1 (some 0x55) (some 0)).meets .invalidInputByte = true) :=
  ⟨⟨next_of_field (by decide), by decide⟩, ⟨next_of_field (by decide), by decide⟩, ⟨next_of_field (by decide), by decide⟩⟩

theorem witness_DigitsGiveTheValueBack : (9999 : CounterValue).toNat ≤ 9999 ∧ (0 : CounterValue).toNat ≤ 9999 := by decide

/-- A frame with `DWELL_CYCLES = 1`: the ports of its five edges, in the last of which a key is offered, and of two more. -/
def shortFrame (key next : Option Byte) : State :=
  { inFrame 1233 0 none none with
    cfg := config 1
    stim := frameInputs ⟨key, some 0x01⟩ :: (List.replicate 3 idleInputs ++ List.replicate 2 (frameInputs ⟨next, none⟩) ++ [idleInputs]) }

theorem witness_DigitPhasePositions : (shortFrame none (some 0x75)).Ready ∧ (shortFrame none (some 0x75)).takesInput = true ∧
    (shortFrame none (some 0x75)).NoReset 5 ∧ (shortFrame none (some 0x75)).offerHeld = true ∧
    (shortFrame none (some 0x75)).HoldsOffers 1 4 ∧ (shortFrame none (some 0x75)).cfg.dwellCycles = 1 := by
  unfold State.NoReset State.HoldsOffers; and_intros <;> decide

theorem witness_FrameFunction : (shortFrame (some 0x71) none).Ready ∧ (shortFrame (some 0x71) none).inInput = true ∧
    (shortFrame (some 0x71) none).offerHeld = true ∧ (shortFrame (some 0x71) none).NoReset 1 ∧
    (shortFrame (some 0x71) none).key.2 = true ∧
    (shortFrame (some 0x75) (some 0x64)).Ready ∧ (shortFrame (some 0x75) (some 0x64)).inInput = true ∧
    (shortFrame (some 0x75) (some 0x64)).offerHeld = true ∧ (shortFrame (some 0x75) (some 0x64)).NoReset 5 ∧
    (shortFrame (some 0x75) (some 0x64)).HoldsOffers 1 4 ∧ (shortFrame (some 0x75) (some 0x64)).key.2 = false := by
  unfold State.NoReset State.HoldsOffers; and_intros <;> decide

/-- The next frame quits, and it does not. -/
theorem witness_WordsAreHeldForTheirDwell : ∀ next : Option Byte, next = some 0x71 ∨ next = some 0x75 →
    (shortFrame none next).Ready ∧ (shortFrame none next).takesInput = true ∧ (shortFrame none next).offerHeld = true ∧
    (shortFrame none next).NoReset 6 ∧ (shortFrame none next).HoldsOffers 1 5 ∧ (shortFrame none next).cfg.dwellCycles = 1 := by
  unfold State.NoReset State.HoldsOffers
  rintro next (rfl | rfl) <;> and_intros <;> decide

theorem witness_ones_digit_before_the_next_frame :
    (∃ u, runFor 5 (shortFrame none (some 0x71)) = .next u ∧ (u.inInput, u.key.2, u.disp) = (true, true, 0x0998)) ∧
    ∃ u, runFor 6 (shortFrame none (some 0x75)) = .next u ∧ (u.inDigit, u.disp, u.inputs.rst) = (true, 0x0998, false) :=
  ⟨next_of_field (by decide), next_of_field (by decide)⟩

/-- A key offered at the first cycle of a DIGIT phase, and at its last, and held. -/
def waiting (k : BitVec 2) : State := { inDwell 1 5 k 0 with stim := List.replicate 5 (frameInputs ⟨some 0x75, none⟩) }

theorem witness_KeyWaitsAtMostFourDwells :
    ((waiting 0).Ready ∧ (waiting 0).inDigit = true ∧
      4 + ((waiting 0).k.toNat * (waiting 0).cfg.dwellCycles + (waiting 0).cnt) = 4 * (waiting 0).cfg.dwellCycles ∧
      (waiting 0).offerHeld = true ∧ (waiting 0).NoReset 5 ∧ (waiting 0).HoldsOffers 0 4 ∧ (waiting 0).inputs.keyValid = true) ∧
    ((waiting 3).Ready ∧ (waiting 3).inDigit = true ∧
      1 + ((waiting 3).k.toNat * (waiting 3).cfg.dwellCycles + (waiting 3).cnt) = 4 * (waiting 3).cfg.dwellCycles ∧
      (waiting 3).offerHeld = true ∧ (waiting 3).NoReset 2 ∧ (waiting 3).HoldsOffers 0 1 ∧ (waiting 3).inputs.keyValid = true) := by
  unfold State.NoReset State.HoldsOffers; and_intros <;> decide

/-- A digit word, a word with select 0 and a pattern, a word with two selects, a word with a reserved bit, and a word the block sends. -/
theorem witness_SinkContract : ((config 1).Valid ∧ wordSel 0x0998 = selectOf (config 1) 3 ∧ wordReserved 0x0998 = 0) ∧
    (wordSel 0x0FF0 = 0 ∧ wordReserved 0x0FF0 = 0) ∧ (wordSel 0x0993 ≠ 0 ∧ wordSel 0x0993 ∉ oneHotSelects) ∧ wordReserved 0x1998 ≠ 0 ∧
    ∃ t, step (inDwell 2 1 3 0) = .next t ∧ t.we = true :=
  ⟨by decide, by decide, by decide, by decide, next_of_field (by decide)⟩

theorem witness_DwellCounterFitsItsWidth : (inDwell 1 0 0 0).Inv ∧ (inDwell 4 0 3 3).Inv := by decide

/-! ### withFetchWord -/

/-- The coming edge runs the word placed: STIM 0x01010175 from reset increments twice; RS3's INIT; the last dwell cycle. -/
theorem test_withFetchWord : field (step (State.reset.withFetchWord 32 0x01010175)) (·.value) = some 2 ∧
    field (step (State.reset.withFetchWord 8 0x04)) (·.run) = some .failed ∧
    field (step (State.reset.withFetchWord 8 0x0D)) (·.k) = some 1 := by decide

end Sys2Proof.Tests
end

section
/-! PROOFS. Where a row or an edge has no effect or no meaning: a row whose condition does not hold, a refused configuration, a withdrawn
offer, a state outside the invariants; and the width of the dwell counter. -/

namespace Sys2Proof.Machine

/-! ### Every row but RESET as one rule -/

/-- The condition under which a row fires. RESET, ENCODE and DETECT fire in every cycle. `exec_eq_rule` ties it to `exec`. -/
def ruleFires (s : State) : Instr → Bool
  | .keyU => s.inInput && decide (s.keyRow = .keyU)
  | .keyD => s.inInput && decide (s.keyRow = .keyD)
  | .keyP => s.inInput && decide (s.keyRow = .keyP)
  | .keyQ => s.inInput && decide (s.keyRow = .keyQ)
  | .keyOther b => s.inInput && decide (s.keyRow = .keyOther b)
  | .keyNone => s.inInput && decide (s.keyRow = .keyNone)
  | .keyDecode b => s.inInput && decide (s.inputs.keyByte = b)
  | .btnSample b => s.takesInput && decide (s.btnRow = .btnSample b)
  | .readError => s.takesInput && decide (s.btnRow = .readError)
  | .btnUp => s.takesInput && s.loc.e.getLsbD 0
  | .btnDown => s.takesInput && s.loc.e.getLsbD 1
  | .cmdNone | .cmdInc | .cmdDec | .cmdRst | .counterUpdate _ | .inputCycle => s.takesInput
  | .init => decide (s.run = .init)
  | .halted => s.isHalted
  | .digitWrite => s.inDigit && decide (s.cnt = 0)
  | .dwellStep => s.inDigit && decide (s.cnt < s.cfg.dwellCycles - 1)
  | .digitAdvance => s.inDigit && decide (s.cnt = s.cfg.dwellCycles - 1)
  | .reset | .encode _ | .detect _ => true

/-- Every row but RESET is a rule, ENCODE where its digit is one: it has a condition and an effect, and answers as `rule` does. -/
theorem exec_eq_rule {i : Instr} (hr : i ≠ .reset) (hd : ∀ d, i = .encode d → DigitOk d) (s : State) :
    ∃ effect, exec i s = rule s (ruleFires s i) effect := by
  cases i with
  | reset => exact absurd rfl hr
  | encode d => exact ⟨_, exec_encode s d (hd d rfl)⟩
  | keyOther b => exact ⟨_, exec_keyOther s b⟩
  | btnSample b => exact ⟨_, exec_btnSample s b⟩
  | detect cur => exact ⟨_, exec_detect s cur⟩
  | counterUpdate kc => exact ⟨_, exec_counterUpdate s kc⟩
  | keyDecode b => exact ⟨_, exec_keyDecode s b⟩
  | keyU => exact ⟨_, exec_keyU s⟩
  | keyD => exact ⟨_, exec_keyD s⟩
  | keyP => exact ⟨_, exec_keyP s⟩
  | keyQ => exact ⟨_, exec_keyQ s⟩
  | keyNone => exact ⟨_, exec_keyNone s⟩
  | readError => exact ⟨_, exec_readError s⟩
  | btnUp => exact ⟨_, exec_btnUp s⟩
  | btnDown => exact ⟨_, exec_btnDown s⟩
  | cmdNone => exact ⟨_, exec_cmdNone s⟩
  | cmdInc => exact ⟨_, exec_cmdInc s⟩
  | cmdDec => exact ⟨_, exec_cmdDec s⟩
  | cmdRst => exact ⟨_, exec_cmdRst s⟩
  | init => exact ⟨_, exec_init s⟩
  | halted => exact ⟨_, exec_halted s⟩
  | inputCycle => exact ⟨_, exec_inputCycle s⟩
  | digitWrite => exact ⟨_, exec_digitWrite s⟩
  | dwellStep => exact ⟨_, exec_dwellStep s⟩
  | digitAdvance => exact ⟨_, exec_digitAdvance s⟩

theorem digitOk_of_wellFormed {i : Instr} (hw : i.wellFormed = true) : ∀ d, i = .encode d → DigitOk d := by
  rintro d rfl
  exact of_decide_eq_true hw

theorem exec_of_not_fires {s : State} {i : Instr} (h : s.Ready) (hf : ruleFires s i = false) : exec i s = .next s := by
  have hr : i ≠ .reset := by rintro rfl; cases hf
  have hd : ∀ d, i = .encode d → DigitOk d := by rintro d rfl; cases hf
  obtain ⟨effect, he⟩ := exec_eq_rule hr hd s
  exact he.trans (rule_idle h.1 h.2 effect hf)

theorem exec_of_invalid {s : State} {i : Instr} (hv : ¬ s.cfg.Valid) (hw : i.wellFormed = true) :
    exec i s = .refused .invalidConfiguration := by
  by_cases hr : i = .reset
  · subst hr; exact if_neg hv
  · obtain ⟨effect, he⟩ := exec_eq_rule hr (digitOk_of_wellFormed hw) s
    exact he.trans (rule_of_invalid hv _ effect)

theorem exec_of_not_inv {s : State} {i : Instr} (hv : s.cfg.Valid) (hi : ¬ s.Inv) (hw : i.wellFormed = true)
    (hr : i ≠ .reset) : exec i s = .fault .stateOutsideInvariant := by
  obtain ⟨effect, he⟩ := exec_eq_rule hr (digitOk_of_wellFormed hw) s
  exact he.trans (rule_of_not_inv hv hi _ effect)

/-! ### Edges without a meaning -/

theorem edge_of_invalid {s : State} (hv : ¬ s.cfg.Valid) : edge s = .refused .invalidConfiguration := if_neg hv

theorem edge_of_not_inv {s : State} (hv : s.cfg.Valid) (ho : s.offerHeld = true) (hrst : s.inputs.rst = false)
    (hi : ¬ s.Inv) : edge s = .fault .stateOutsideInvariant := by
  unfold edge
  rw [if_pos hv, if_pos ho, if_neg]
  rintro (h | h)
  · exact absurd h (by rw [hrst]; decide)
  · exact hi h

/-- An offer whose byte is gone from the key ports is not held. -/
theorem offerHeld_eq_false {s : State} {b : Byte} (ho : s.offer = some b)
    (hk : s.inputs.keyValid = false ∨ s.inputs.keyByte ≠ b) : s.offerHeld = false := by
  rw [Bool.eq_false_iff]
  intro hh
  obtain ⟨hvalid, hbyte⟩ := (offerHeld_iff s).1 hh b ho
  rcases hk with hk | hk
  · exact absurd hvalid (by rw [hk]; decide)
  · exact hk hbyte

/-- Settles O43: every row but RESET is a rule, and an edge checks the configuration, the offer and the invariants in that order. -/
theorem statesWithoutMeaning : Obligations.StatesWithoutMeaning := by
  refine ⟨fun s hv => ⟨edge_of_invalid hv, fun i hw => exec_of_invalid hv hw⟩,
    fun s b hv ho hk => edge_of_withdrawn hv (offerHeld_eq_false ho hk),
    fun s hv hi => ⟨fun ho hrst => edge_of_not_inv hv ho hrst hi, fun i hw hr => exec_of_not_inv hv hi hw hr, ?_⟩⟩
  exact ⟨s.resetRegisters, exec_reset s hv, resetRegisters_inv hv⟩

/-! ### Rows that do not fire -/

/-- A key row without an operand fires in the INPUT cycle with that key on the ports. -/
theorem ruleFires_keyRow (s : State) {i : Instr} (h : i ∈ [Instr.keyU, .keyD, .keyP, .keyQ, .keyNone]) :
    ruleFires s i = (s.inInput && decide (s.keyRow = i)) := by
  simp only [List.mem_cons, List.not_mem_nil, or_false] at h
  rcases h with rfl | rfl | rfl | rfl | rfl <;> rfl

/-- The button and counter rows without an operand, and INPUT_CYCLE, need an INPUT cycle that does not quit. -/
theorem ruleFires_of_not_takesInput {s : State} (hs : s.takesInput = false) {i : Instr}
    (h : i ∈ [Instr.readError, .btnUp, .btnDown, .cmdNone, .cmdInc, .cmdDec, .cmdRst, .inputCycle]) :
    ruleFires s i = false := by
  simp only [List.mem_cons, List.not_mem_nil, or_false] at h
  rcases h with rfl | rfl | rfl | rfl | rfl | rfl | rfl | rfl <;> simp [ruleFires, hs]

/-- The rows of the DIGIT phase need it. -/
theorem ruleFires_of_not_inDigit {s : State} (hs : s.inDigit = false) {i : Instr}
    (h : i ∈ [Instr.digitWrite, .dwellStep, .digitAdvance]) : ruleFires s i = false := by
  simp only [List.mem_cons, List.not_mem_nil, or_false] at h
  rcases h with rfl | rfl | rfl <;> simp [ruleFires, hs]

/-- Settles O44: in each clause the row's condition is false, so its rule is idle. -/
theorem unfiredRuleChangesNothing : Obligations.UnfiredRuleChangesNothing := by
  intro s h
  have idle : ∀ {i : Instr}, ruleFires s i = false → exec i s = .next s := exec_of_not_fires h
  refine ⟨fun hs i hi => idle ?keyOutside, fun hs b => ⟨idle ?keyOtherOutside, idle ?keyDecodeOutside⟩,
    fun hs i hi => idle (ruleFires_of_not_takesInput hs hi), fun hs b kc => ⟨idle ?sampleOutside, idle ?counterOutside⟩,
    fun hs i hi => idle (ruleFires_of_not_inDigit hs hi), fun hs => idle ?init, fun hs => idle hs,
    fun i hi hk => idle ?otherKey, fun b hk => idle ?otherByte, fun b hb => idle ?otherPort,
    fun b hb => idle ?otherSample, fun hb => idle ?goodSample, fun hc => idle ?notFirst, fun hc => idle ?last,
    fun hc => idle ?notLast⟩
  case keyOutside => rw [ruleFires_keyRow s hi, hs, Bool.false_and]
  case keyOtherOutside | keyDecodeOutside => simp [ruleFires, hs]
  case sampleOutside | counterOutside => simp [ruleFires, hs]
  case init => simp [ruleFires, hs]
  case otherKey => rw [ruleFires_keyRow s hi, decide_eq_false hk.symm, Bool.and_false]
  case otherByte => simp [ruleFires, hk.symm]
  case otherPort => simp [ruleFires, hb.symm]
  case otherSample | goodSample => simp [ruleFires, hb.symm]
  case notFirst | notLast => simp [ruleFires, hc]
  case last => simp [ruleFires, hc]

/-! ### The dwell counter's width -/

/-- `CW` bits count the cycles of a dwell (00_scope.md R10). -/
theorem dwellCycles_le_two_pow_cntWidth (c : Config) : c.dwellCycles ≤ 2 ^ c.cntWidth :=
  calc c.dwellCycles
    _ ≤ 2 ^ Nat.clog 2 c.dwellCycles := Nat.le_pow_clog (by decide) _
    _ ≤ 2 ^ c.cntWidth := Nat.pow_le_pow_right (by decide) (Nat.le_max_right _ _)

/-- Settles O60: under the invariants the count is below `DWELL_CYCLES`, which is at most `2 ^ CW`. -/
theorem dwellCounterFitsItsWidth : Obligations.DwellCounterFitsItsWidth := by
  rintro s ⟨-, hcnt, -⟩
  have hlt : s.cnt < 2 ^ s.cfg.cntWidth := hcnt.trans_le (dwellCycles_le_two_pow_cntWidth s.cfg)
  refine ⟨?_, Nat.le_max_left _ _⟩
  rw [State.cntBits, BitVec.toNat_ofNat, Nat.mod_eq_of_lt hlt]

end Sys2Proof.Machine
end

section
/-! PROOFS. What one edge can do, as one inversion of the step, and what follows of every run: the invariants of 10_state.md R30 and the
write strobe of R23; then the output ports of R27. -/

namespace Sys2Proof.Machine

/-! ### The four kinds of cycle, and the quit key -/

theorem inInput_iff (s : State) : s.inInput = true ↔ s.run = .running ∧ s.phase = .input := by
  simp [State.inInput]

theorem inDigit_iff (s : State) : s.inDigit = true ↔ s.run = .running ∧ s.phase = .digit := by
  simp [State.inDigit]

theorem isHalted_iff (s : State) : s.isHalted = true ↔ s.run = .terminated ∨ s.run = .failed := by
  simp [State.isHalted]

/-- The key decode quits exactly on an offered 'q' (30_encoding.md R61, R62). -/
theorem key_quits_iff (s : State) : s.key.2 = true ↔ s.inputs.keyValid = true ∧ s.inputs.keyByte = 0x71 := by
  unfold State.key keydec
  by_cases hq : s.inputs.keyByte = 0x71
  · cases s.inputs.keyValid <;> simp [hq]
  · cases s.inputs.keyValid <;> simp only [hq, if_false] <;> split_ifs <;> simp

/-! ### All that an edge can do -/

/-- The display write of a DIGIT cycle, in the first cycle of a dwell (43_multiplexer.md R102). -/
def State.writeDueDigit (s : State) : State := if s.cnt = 0 then s.writeDigit else s

theorem State.writeDueDigit_of_first {s : State} (h : s.cnt = 0) : s.writeDueDigit = s.writeDigit := if_pos h

theorem State.writeDueDigit_of_not_first {s : State} (h : s.cnt ≠ 0) : s.writeDueDigit = s := if_neg h

/-- The display write moves no part of the sequencer. -/
theorem State.writeDueDigit_sequencer (s : State) :
    s.writeDueDigit.inDigit = s.inDigit ∧ s.writeDueDigit.cnt = s.cnt ∧ s.writeDueDigit.cfg = s.cfg := by
  unfold State.writeDueDigit
  split <;> exact ⟨rfl, rfl, rfl⟩

/-- The states that an edge leads to, case by case of 44_frame_control.md R123. `edgeCase_of_step` ties it to `step`. -/
inductive EdgeCase (s : State) : State → Prop where
  | reset (hrst : s.inputs.rst = true) : EdgeCase s s.beginEdge.resetRegisters.endEdge
  | init (hrst : s.inputs.rst = false) (hrun : s.run = .init) : EdgeCase s s.beginEdge.startUp.endEdge
  | halted (hrst : s.inputs.rst = false) (hhalt : s.isHalted = true) : EdgeCase s s.beginEdge.hold.endEdge
  | quit (hrst : s.inputs.rst = false) (hin : s.inInput = true) (hq : s.key.2 = true) :
      EdgeCase s s.beginEdge.takeKey.quitFrame.endEdge
  | input (hrst : s.inputs.rst = false) (hin : s.inInput = true) (hq : s.key.2 = false) :
      EdgeCase s s.beginEdge.takeKey.inputCycle.endEdge
  | advance (hrst : s.inputs.rst = false) (hd : s.inDigit = true) (hlast : s.cnt = s.cfg.dwellCycles - 1) :
      EdgeCase s s.beginEdge.writeDueDigit.advanceDigit.endEdge
  | dwell (hrst : s.inputs.rst = false) (hd : s.inDigit = true) (hlast : s.cnt < s.cfg.dwellCycles - 1) :
      EdgeCase s s.beginEdge.writeDueDigit.stepDwell.endEdge

/-- A rule that fires and answers a next state answers its effect. -/
theorem rule_next_of_fires {s t : State} {fires : Bool} {f : State → State} (hf : fires = true)
    (h : rule s fires f = .next t) : t = f s := by
  obtain ⟨-, -, ht⟩ := rule_next h
  rwa [if_pos hf] at ht

theorem runRules_singleton (i : Instr) (s : State) : runRules [i] s = exec i s := by
  rw [runRules_cons]
  cases exec i s <;> rfl

/-- The rules of a DIGIT cycle: the due display write, and then the rule that moves the sequencer. -/
theorem runRules_digit {s u : State} {i : Instr} (hv : s.cfg.Valid) (hi : s.Inv) (hd : s.inDigit = true)
    (h : runRules ((if s.cnt = 0 then [Instr.digitWrite] else []) ++ [i]) s = .next u) :
    exec i s.writeDueDigit = .next u := by
  by_cases h0 : s.cnt = 0
  · have hw : exec .digitWrite s = .next s.writeDigit := rule_fires hv hi _ (by simp [hd, h0])
    rw [if_pos h0, List.singleton_append, runRules_cons, hw, andThen_of_next, runRules_singleton] at h
    rwa [State.writeDueDigit_of_first h0]
  · rw [if_neg h0, List.nil_append, runRules_singleton] at h
    rwa [State.writeDueDigit_of_not_first h0]

/-- The inversion of the step: every next state is one of the cases of `EdgeCase`. -/
theorem edgeCase_of_step {s t : State} (h : step s = .next t) : EdgeCase s t := by
  obtain ⟨hv, -, hinv, u, hu, rfl⟩ := edge_next h
  cases hrst : s.inputs.rst with
  | true =>
    rw [fetch_reset hrst, runRules_singleton, exec_reset s.beginEdge hv] at hu
    cases hu
    exact .reset hrst
  | false =>
    have hb : s.beginEdge.Inv := beginEdge_inv (hinv.resolve_left (by simp [hrst]))
    rcases cycle_cases s with hrun | hhalt | hin | hd
    · rw [fetch_init hrst hrun, runRules_singleton] at hu
      cases rule_next_of_fires (decide_eq_true hrun) hu
      exact .init hrst hrun
    · rw [fetch_halted hrst hhalt, runRules_singleton] at hu
      cases rule_next_of_fires hhalt hu
      exact .halted hrst hhalt
    · rw [fetch_input hrst hin, runRules_singleton] at hu
      have hrow := exec_keyRow (s := s.beginEdge) hv hb hin
      cases hu.symm.trans hrow
      cases hq : s.key.2 with
      | true => rw [if_pos (show s.beginEdge.key.2 = true from hq)]; exact .quit hrst hin hq
      | false => rw [if_neg (show ¬ s.beginEdge.key.2 = true from ne_true_of_eq_false hq)]; exact .input hrst hin hq
    · rw [fetch_digit hrst hd] at hu
      have hu := runRules_digit (s := s.beginEdge) hv hb hd hu
      obtain ⟨hd', hcnt', hcfg'⟩ := State.writeDueDigit_sequencer s.beginEdge
      by_cases hlast : s.cnt = s.cfg.dwellCycles - 1
      · rw [if_pos hlast, exec_digitAdvance] at hu
        cases rule_next_of_fires (by simp [hd', hcnt', hcfg', hlast, show s.beginEdge.inDigit = true from hd]) hu
        exact .advance hrst hd hlast
      · have hlt : s.cnt < s.cfg.dwellCycles - 1 := by
          obtain ⟨-, hcnt, -⟩ := hb
          exact Nat.lt_of_le_of_ne (Nat.le_sub_one_of_lt hcnt) hlast
        rw [if_neg hlast, exec_dwellStep] at hu
        cases rule_next_of_fires (by simp [hd', hcnt', hcfg', hlt, show s.beginEdge.inDigit = true from hd]) hu
        exact .dwell hrst hd hlt

/-! ### Each effect keeps the invariants -/

theorem startUp_inv {s : State} (h : s.Inv) (hrun : s.run = .init) : s.startUp.Inv := by
  obtain ⟨hval, hcnt, hin, hidle, hdisp, -⟩ := h
  unfold State.startUp
  split
  · exact ⟨hval, hcnt, hin, fun hr => absurd rfl hr, hdisp, nofun⟩
  · exact ⟨hval, hcnt, hin, fun _ => hidle (by simp [hrun]), hdisp, nofun⟩

theorem hold_inv {s : State} (h : s.Inv) : s.hold.Inv := by
  obtain ⟨hval, hcnt, hin, hidle, hdisp, hinit⟩ := h
  refine ⟨hval, hcnt, hin, hidle, hdisp, fun hr => ?_⟩
  obtain ⟨hv, hp, hd, -⟩ := hinit hr
  exact ⟨hv, hp, hd, rfl⟩

theorem takeKey_inv {s : State} (h : s.Inv) : s.takeKey.Inv := by rw [takeKey_eq]; exact h

/-- The blank word meets invariant (v) of 10_state.md R30. -/
theorem blankWord_fields : wordReserved 0x0000 = 0 ∧ (wordSel 0x0000 = 0 ∨ wordSel 0x0000 ∈ oneHotSelects) := by decide

theorem quitFrame_inv {s : State} (h : s.Inv) (hphase : s.phase = .input) : s.quitFrame.Inv := by
  obtain ⟨hval, hcnt, hin, -, -, -⟩ := h
  rw [quitFrame_eq]
  exact ⟨hval, hcnt, hin, fun _ => ⟨hphase, hin hphase⟩, blankWord_fields, nofun⟩

theorem inputCycle_inv {s : State} (h : s.Inv) (hrun : s.run = .running) : s.inputCycle.Inv := by
  obtain ⟨hval, hcnt, -, -, hdisp, -⟩ := h
  rw [inputCycle_eq]
  exact ⟨counterUpdate_le _ _ hval, Nat.zero_lt_of_lt hcnt, nofun, fun hr => absurd hrun hr, hdisp,
    fun hr => absurd (hrun.symm.trans hr) nofun⟩

theorem writeDueDigit_inv {s : State} (hv : s.cfg.Valid) (h : s.Inv) (hd : s.inDigit = true) : s.writeDueDigit.Inv := by
  unfold State.writeDueDigit
  split
  · exact writeDigit_inv hv h hd
  · exact h

theorem advanceDigit_inv {s : State} (h : s.Inv) (hd : s.inDigit = true) : s.advanceDigit.Inv := by
  obtain ⟨hrun, hphase⟩ := (inDigit_iff s).1 hd
  obtain ⟨hval, hcnt, -, -, hdisp, -⟩ := h
  have hpos : 0 < s.cfg.dwellCycles := Nat.zero_lt_of_lt hcnt
  have hnotInit : s.run ≠ .init := by simp [hrun]
  unfold State.advanceDigit
  split
  · exact ⟨hval, hpos, fun _ => ⟨rfl, rfl⟩, fun hr => absurd hrun hr, hdisp, fun hr => absurd hr hnotInit⟩
  · exact ⟨hval, hpos, fun hp => absurd (hphase.symm.trans hp) nofun, fun hr => absurd hrun hr, hdisp,
      fun hr => absurd hr hnotInit⟩

theorem stepDwell_inv {s : State} (h : s.Inv) (hd : s.inDigit = true) (hlt : s.cnt < s.cfg.dwellCycles - 1) :
    s.stepDwell.Inv := by
  obtain ⟨hrun, hphase⟩ := (inDigit_iff s).1 hd
  obtain ⟨hval, -, -, -, hdisp, -⟩ := h
  exact ⟨hval, Nat.add_lt_of_lt_sub hlt, fun hp => absurd (hphase.symm.trans hp) nofun, fun hr => absurd hrun hr, hdisp,
    fun hr => absurd (hrun.symm.trans hr) nofun⟩

/-! ### Every step and every run keeps the invariants -/

theorem step_inv {s t : State} (h : s.Inv) (hs : step s = .next t) : t.Inv := by
  obtain ⟨hv, -⟩ := edge_next hs
  have hb : s.beginEdge.Inv := beginEdge_inv h
  cases edgeCase_of_step hs with
  | reset => exact endEdge_inv (resetRegisters_inv hv)
  | init _ hrun => exact endEdge_inv (startUp_inv hb hrun)
  | halted => exact endEdge_inv (hold_inv hb)
  | quit _ hin =>
    obtain ⟨-, hphase⟩ := (inInput_iff s).1 hin
    exact endEdge_inv (quitFrame_inv (takeKey_inv hb) (by rw [takeKey_eq]; exact hphase))
  | input _ hin =>
    obtain ⟨hrun, -⟩ := (inInput_iff s).1 hin
    exact endEdge_inv (inputCycle_inv (takeKey_inv hb) (by rw [takeKey_eq]; exact hrun))
  | advance _ hd =>
    obtain ⟨hd', -, -⟩ := State.writeDueDigit_sequencer s.beginEdge
    exact endEdge_inv (advanceDigit_inv (writeDueDigit_inv hv hb hd) (hd'.trans hd))
  | dwell _ hd hlt =>
    obtain ⟨hd', hcnt', hcfg'⟩ := State.writeDueDigit_sequencer s.beginEdge
    exact endEdge_inv (stepDwell_inv (writeDueDigit_inv hv hb hd) (hd'.trans hd) (by rw [hcnt', hcfg']; exact hlt))

/-- Settles O40: by the cases of an edge, each of whose effects keeps the invariants. -/
theorem stepKeepsInvariant : Obligations.StepKeepsInvariant := fun _ _ => step_inv

theorem reachable_inv {s : State} (h : Reachable s) : s.Inv := by
  induction h with
  | reset s hv => exact resetRegisters_inv hv
  | step s t _ hs ih => exact step_inv ih hs

/-- Settles O42: by induction on the run; the words of R30 are `State.Inv` unfolded. -/
theorem reachableStatesMeetInvariant : Obligations.ReachableStatesMeetInvariant := fun _ => reachable_inv

/-- The configuration of the machine at reset is accepted: `DWELL_CYCLES` is a successor, and the two tables are concrete. -/
theorem standard_valid : Config.standard.Valid :=
  ⟨Nat.le_add_left 1 _, by decide, by decide, by decide⟩

/-- Settles O41: `State.reset` is what RESET makes of a state with the configuration at reset, which is accepted. -/
theorem resetMeetsInvariant : Obligations.ResetMeetsInvariant :=
  ⟨resetRegisters_inv (s := State.reset) standard_valid, standard_valid⟩

/-! ### What each effect sends -/

theorem writesOf_append (ev ev' : List Event) : writesOf (ev ++ ev') = writesOf ev ++ writesOf ev' :=
  List.filterMap_append

/-- The state `t` after `s` strobes the word on its outputs, sent once since `s`. -/
def SendsOne (s t : State) : Prop := t.we = true ∧ writesOf t.trace = writesOf s.trace ++ [t.disp]

/-- The state `t` after `s` strobes nothing: nothing was sent since `s`, and the word on the outputs stands. -/
def SendsNone (s t : State) : Prop := t.we = false ∧ t.disp = s.disp ∧ writesOf t.trace = writesOf s.trace

theorem startUp_sendsNone {s : State} (hwe : s.we = false) : SendsNone s s.startUp := by
  unfold State.startUp
  split
  · exact ⟨hwe, rfl, rfl⟩
  · exact ⟨hwe, rfl, (writesOf_append _ _).trans (List.append_nil _)⟩

/-- Taking a key sends no word. -/
theorem writesOf_taken (i : Inputs) : writesOf (if i.keyValid = true then [.keyTaken i.keyByte] else []) = [] := by
  split <;> rfl

theorem quitCycle_sendsOne (s : State) : SendsOne s s.takeKey.quitFrame := by
  rw [takeKey_quitFrame]
  refine ⟨rfl, ?_⟩
  rw [writesOf_append, writesOf_append, writesOf_taken]
  rfl

theorem keyCycle_sendsNone {s : State} (hq : s.key.2 = false) : SendsNone s s.takeKey.inputCycle := by
  rw [takeKey_inputCycle s hq]
  refine ⟨rfl, rfl, ?_⟩
  rw [State.afterInput, writesOf_append, writesOf_append, writesOf_taken]
  exact List.append_nil _

theorem writeDigit_sendsOne (s : State) : SendsOne s s.writeDigit := by
  rw [writeDigit_eq]
  exact ⟨rfl, writesOf_append _ _⟩

/-- Moving to the next digit touches neither the outputs nor the trace. -/
theorem advanceDigit_outputs (s : State) :
    s.advanceDigit.we = s.we ∧ s.advanceDigit.disp = s.disp ∧ s.advanceDigit.trace = s.trace := by
  unfold State.advanceDigit
  split <;> exact ⟨rfl, rfl, rfl⟩

/-! ### The write strobe -/

/-- The edges of the two writes of 10_state.md R22, but for `rst`: the first cycle of a dwell, and the quit. -/
def State.SendsWord (s : State) : Prop :=
  (s.inDigit = true ∧ s.cnt = 0) ∨ (s.inInput = true ∧ s.inputs.keyValid = true ∧ s.inputs.keyByte = 0x71)

/-- What 10_state.md R23 says of an edge from `s` to `t`. -/
def StrobeMarksTransfer (s t : State) : Prop :=
  (t.we = true ↔ s.inputs.rst = false ∧ s.SendsWord) ∧
  (t.we = true → writesOf t.trace = writesOf s.trace ++ [t.disp]) ∧
  (t.we = false → writesOf t.trace = writesOf s.trace ∧ (s.inputs.rst = false → t.disp = s.disp))

theorem SendsOne.strobe {s t : State} (h : SendsOne s t) (hrst : s.inputs.rst = false) (hs : s.SendsWord) :
    StrobeMarksTransfer s t := by
  obtain ⟨hwe, hsent⟩ := h
  exact ⟨iff_of_true hwe ⟨hrst, hs⟩, fun _ => hsent, fun h => absurd (hwe.symm.trans h) nofun⟩

theorem SendsNone.strobe {s t : State} (h : SendsNone s t) (hs : ¬ s.SendsWord) : StrobeMarksTransfer s t := by
  obtain ⟨hwe, hdisp, hsent⟩ := h
  exact ⟨iff_of_false (by simp [hwe]) fun hw => hs hw.2, fun h => absurd (hwe.symm.trans h) nofun,
    fun _ => ⟨hsent, fun _ => hdisp⟩⟩

/-- In a DIGIT cycle a word is sent exactly in the first cycle of the dwell, whatever the sequencer does next: `u` stands for the state
with the sequencer moved. -/
theorem digitCycle_strobe {s u : State} (hrst : s.inputs.rst = false) (hd : s.inDigit = true)
    (hwe : u.we = s.beginEdge.writeDueDigit.we) (hdisp : u.disp = s.beginEdge.writeDueDigit.disp)
    (htrace : u.trace = s.beginEdge.writeDueDigit.trace) : StrobeMarksTransfer s u := by
  by_cases h0 : s.cnt = 0
  · have hone : SendsOne s u := by
      rw [SendsOne, hwe, hdisp, htrace, State.writeDueDigit_of_first (s := s.beginEdge) h0]
      exact writeDigit_sendsOne s.beginEdge
    exact hone.strobe hrst (Or.inl ⟨hd, h0⟩)
  · have hnone : SendsNone s u := by
      rw [SendsNone, hwe, hdisp, htrace, State.writeDueDigit_of_not_first (s := s.beginEdge) h0]
      exact ⟨rfl, rfl, rfl⟩
    have hphase := (inDigit_iff s).1 hd
    exact hnone.strobe (by simp [State.SendsWord, inInput_iff, h0, hphase])

theorem step_strobe {s t : State} (h : step s = .next t) : StrobeMarksTransfer s t := by
  cases edgeCase_of_step h with
  | reset hrst => exact ⟨by simp [hrst], nofun, fun _ => ⟨rfl, by simp [hrst]⟩⟩
  | init _ hrun =>
    have hnone : SendsNone s s.beginEdge.startUp.endEdge := startUp_sendsNone (s := s.beginEdge) rfl
    exact hnone.strobe (by simp [State.SendsWord, inDigit_iff, inInput_iff, hrun])
  | halted _ hhalt =>
    have hnone : SendsNone s s.beginEdge.hold.endEdge := ⟨rfl, rfl, rfl⟩
    refine hnone.strobe ?_
    rcases (isHalted_iff s).1 hhalt with hrun | hrun <;> simp [State.SendsWord, inDigit_iff, inInput_iff, hrun]
  | quit hrst hin hq =>
    have hone : SendsOne s s.beginEdge.takeKey.quitFrame.endEdge := quitCycle_sendsOne s.beginEdge
    exact hone.strobe hrst (Or.inr ⟨hin, (key_quits_iff s).1 hq⟩)
  | input _ hin hq =>
    have hnone : SendsNone s s.beginEdge.takeKey.inputCycle.endEdge := keyCycle_sendsNone (s := s.beginEdge) hq
    have hphase := (inInput_iff s).1 hin
    have hkey := (key_quits_iff s).not.1 (ne_true_of_eq_false hq)
    refine hnone.strobe ?_
    rintro (⟨hd, -⟩ | ⟨-, hk⟩)
    · exact absurd (hphase.2.symm.trans ((inDigit_iff s).1 hd).2) nofun
    · exact hkey hk
  | advance hrst hd =>
    obtain ⟨hwe, hdisp, htrace⟩ := advanceDigit_outputs s.beginEdge.writeDueDigit
    exact digitCycle_strobe hrst hd hwe hdisp htrace
  | dwell hrst hd => exact digitCycle_strobe hrst hd rfl rfl rfl

/-- Settles O47: by the cases of an edge; a word is sent in the quit case and in the first cycle of a dwell. -/
theorem writeStrobeMarksTransfers : Obligations.WriteStrobeMarksTransfers := fun _ _ => step_strobe

/-! ### The output ports -/

/-- Settles O57: each port is its register, or the kind of cycle it marks. -/
theorem outputPorts : Obligations.OutputPorts := fun s =>
  ⟨inInput_iff s, inInput_iff s, rfl, rfl, isHalted_iff s, decide_eq_true_iff⟩

end Sys2Proof.Machine
end

section
/-! PROOFS. The display's side of the interface (20_memory.md R42 to R44) and the key handshake (R39). -/

namespace Sys2Proof.Machine

/-! ### The byte stream -/

/-- Settles O59: the bytes are the two halves of the word, in the order in which `wordOfBytes` puts them back together. -/
theorem byteStreamOrder : Obligations.ByteStreamOrder := by
  intro w
  have halves : w.extractLsb' 8 8 ++ w.extractLsb' 0 8 = w := by
    rw [BitVec.extractLsb'_append_extractLsb'_eq_extractLsb' (by decide)]
    exact BitVec.extractLsb'_eq_self
  exact ⟨rfl, congrArg some halves, fun _ => rfl⟩

/-! ### Which words the sink acts on -/

theorem sinkAccepts_iff (w : DisplayWord) :
    sinkAccepts w = true ↔ wordReserved w = 0 ∧ (wordSel w = 0 ∨ wordSel w ∈ oneHotSelects) := by
  simp only [sinkAccepts, Bool.and_eq_true, Bool.or_eq_true, decide_eq_true_iff]

theorem sinkApply_of_ignored {w : DisplayWord} (h : ¬ sinkAccepts w = true) (c : Config) (shown : Shown) :
    sinkApply c shown w = shown := if_neg h

theorem sinkApply_of_blank {w : DisplayWord} (hres : wordReserved w = 0) (hsel : wordSel w = 0) (c : Config) (shown : Shown) :
    sinkApply c shown w = none := by
  rw [sinkApply, if_pos ((sinkAccepts_iff w).2 ⟨hres, Or.inl hsel⟩), if_pos hsel]

theorem get_injective_of_nodup {α : Type} {n : Nat} {v : Vector α n} (h : v.toList.Nodup) {i j : Fin n}
    (hij : v.get i = v.get j) : i = j := by
  have hlist : v.toList[i.val]'(by simp) = v.toList[j.val]'(by simp) := by
    simpa [Vector.get_eq_getElem] using hij
  exact Fin.ext (h.getElem_inj_iff.1 hlist)

/-- The selects of an accepted configuration are distinct, so a position is the one its select stands for. -/
theorem positionOf_selectOf {c : Config} (hv : c.Valid) (k : BitVec 2) : positionOf c (selectOf c k) = some k.toFin := by
  obtain ⟨-, -, hnodup, -⟩ := hv
  cases hfind : positionOf c (selectOf c k) with
  | none => exact absurd (List.find?_eq_none.1 hfind k.toFin (List.mem_finRange _)) (by simp [selectOf])
  | some j =>
    have hj : c.selMap.get j = c.selMap.get k.toFin := by simpa [selectOf] using List.find?_some hfind
    rw [get_injective_of_nodup hnodup hj]

theorem oneHot_ne_zero {sel : Select} (h : sel ∈ oneHotSelects) : sel ≠ 0 := by
  rintro rfl
  exact absurd h (by decide)

theorem sinkApply_of_select {c : Config} (hv : c.Valid) (shown : Shown) {w : DisplayWord} {k : BitVec 2}
    (hsel : wordSel w = selectOf c k) (hres : wordReserved w = 0) : sinkApply c shown w = some (k.toFin, wordPat w) := by
  have hhot : wordSel w ∈ oneHotSelects := hsel ▸ selectOf_oneHot hv k
  rw [sinkApply, if_pos ((sinkAccepts_iff w).2 ⟨hres, Or.inr hhot⟩), if_neg (oneHot_ne_zero hhot), hsel,
    positionOf_selectOf hv, Option.map_some]

/-- Only an edge without reset strobes, and it keeps the invariants, of which (v) bounds the word. -/
theorem step_sends_accepted {s t : State} (h : step s = .next t) (hwe : t.we = true) : sinkAccepts t.disp = true := by
  obtain ⟨hstrobe, -, -⟩ := step_strobe h
  obtain ⟨hrst, -⟩ := hstrobe.1 hwe
  obtain ⟨-, -, hcan, -⟩ := edge_next h
  obtain ⟨-, -, -, -, hdisp, -⟩ := step_inv (hcan.resolve_left (by simp [hrst])) h
  exact (sinkAccepts_iff _).2 hdisp

/-- Settles O58: by the three outcomes of `sinkApply`, and by invariant (v) for the words sent. -/
theorem sinkContract : Obligations.SinkContract := by
  refine ⟨fun c shown w k hv hsel hres => sinkApply_of_select hv shown hsel hres,
    fun c shown => sinkApply_of_blank (by decide) (by decide) c shown,
    fun c shown w hsel hres => sinkApply_of_blank hres hsel c shown,
    fun c shown w hbad => sinkApply_of_ignored ?ignored c shown, fun p i => by simp [segmentLit],
    fun s t h hwe => step_sends_accepted h hwe⟩
  case ignored =>
    rw [sinkAccepts_iff]
    rintro ⟨hres, hsel⟩
    rcases hbad with ⟨hne, hnot⟩ | hbad
    · exact hsel.elim hne hnot
    · exact hbad hres

/-! ### Which bytes an edge takes -/

theorem keysOf_append (ev ev' : List Event) : keysOf (ev ++ ev') = keysOf ev ++ keysOf ev' :=
  List.filterMap_append

/-- The byte on the key port among the events of taking it. -/
theorem keysOf_taken (i : Inputs) :
    keysOf (if i.keyValid = true then [.keyTaken i.keyByte] else []) = if i.keyValid = true then [i.keyByte] else [] := by
  split <;> rfl

/-- Every key, the quit key too, has its byte taken in its INPUT cycle. -/
theorem quitCycle_keys (s : State) :
    keysOf s.takeKey.quitFrame.trace = keysOf s.trace ++ if s.inputs.keyValid = true then [s.inputs.keyByte] else [] := by
  rw [takeKey_quitFrame, keysOf_append, keysOf_append, keysOf_taken]
  exact congrArg (keysOf s.trace ++ ·) (List.append_nil _)

theorem keyCycle_keys {s : State} (hq : s.key.2 = false) :
    keysOf s.takeKey.inputCycle.trace = keysOf s.trace ++ if s.inputs.keyValid = true then [s.inputs.keyByte] else [] := by
  rw [takeKey_inputCycle s hq, State.afterInput, keysOf_append, keysOf_append, keysOf_taken]
  exact congrArg (keysOf s.trace ++ ·) (List.append_nil _)

theorem startUp_keys (s : State) : keysOf s.startUp.trace = keysOf s.trace := by
  unfold State.startUp
  split
  · rfl
  · exact (keysOf_append _ _).trans (List.append_nil _)

theorem writeDueDigit_keys (s : State) : keysOf s.writeDueDigit.trace = keysOf s.trace := by
  unfold State.writeDueDigit
  split
  · exact (keysOf_append _ _).trans (List.append_nil _)
  · rfl

theorem keyRdy_iff (s : State) : s.outputs.keyRdy = true ↔ s.run = .running ∧ s.phase = .input := inInput_iff s

theorem keyRdy_of_not_running {s : State} (hrun : s.run ≠ .running) : s.outputs.keyRdy = false := by
  simp [State.outputs, State.inInput, hrun]

theorem keyRdy_of_inDigit {s : State} (hd : s.inDigit = true) : s.outputs.keyRdy = false := by
  obtain ⟨-, hphase⟩ := (inDigit_iff s).1 hd
  simp [State.outputs, State.inInput, hphase]

/-- Where the port is closed there is no handshake, so an edge that takes no byte takes what it should. -/
theorem keysOf_of_closed {s t : State} (hrdy : s.outputs.keyRdy = false) (ht : keysOf t.trace = keysOf s.trace) :
    keysOf t.trace = keysOf s.trace ++
      (if s.inputs.keyValid = true ∧ s.outputs.keyRdy = true then [s.inputs.keyByte] else []) := by
  rw [ht, if_neg (by simp [hrdy]), List.append_nil]

/-- Without reset, an edge takes the byte of a handshake, and no other. -/
theorem step_keys {s t : State} (h : step s = .next t) (hrst : s.inputs.rst = false) :
    keysOf t.trace = keysOf s.trace ++
      (if s.inputs.keyValid = true ∧ s.outputs.keyRdy = true then [s.inputs.keyByte] else []) := by
  cases edgeCase_of_step h with
  | reset hreset => exact absurd (hrst.symm.trans hreset) nofun
  | init _ hrun => exact keysOf_of_closed (keyRdy_of_not_running (by simp [hrun])) (startUp_keys s.beginEdge)
  | halted _ hhalt =>
    rcases (isHalted_iff s).1 hhalt with hrun | hrun <;> exact keysOf_of_closed (keyRdy_of_not_running (by simp [hrun])) rfl
  | quit _ hin =>
    have hrdy : s.outputs.keyRdy = true := hin
    simp only [hrdy, and_true]
    exact quitCycle_keys s.beginEdge
  | input _ hin hq =>
    have hrdy : s.outputs.keyRdy = true := hin
    simp only [hrdy, and_true]
    exact keyCycle_keys (s := s.beginEdge) hq
  | advance _ hd =>
    obtain ⟨-, -, htrace⟩ := advanceDigit_outputs s.beginEdge.writeDueDigit
    exact keysOf_of_closed (keyRdy_of_inDigit hd) ((congrArg keysOf htrace).trans (writeDueDigit_keys s.beginEdge))
  | dwell _ hd => exact keysOf_of_closed (keyRdy_of_inDigit hd) (writeDueDigit_keys s.beginEdge)

/-- A reset edge emits no event (70_reset_and_hazards.md R144). -/
theorem step_reset_trace {s t : State} (h : step s = .next t) (hrst : s.inputs.rst = true) : t.trace = s.trace := by
  obtain ⟨hv, -, -, u, hu, rfl⟩ := edge_next h
  rw [fetch_reset hrst, runRules_singleton, exec_reset s.beginEdge hv] at hu
  cases hu
  rfl

/-- Settles O48: by the cases of an edge; an INPUT cycle alone has `key_rdy`, and takes the byte offered. -/
theorem keyTakenExactlyByHandshake : Obligations.KeyTakenExactlyByHandshake := fun s _ h =>
  ⟨step_keys h, step_reset_trace h, keyRdy_iff s⟩

end Sys2Proof.Machine
end

section
/-! PROOFS. The reserved button bits: two states that differ at most in them go through every edge together (20_memory.md R37). -/

namespace Sys2Proof.Machine

/-! ### The inversion of the step, turned round -/

/-- `runRules_digit` as an equation, so that it can be read from the last rule back to the cycle. -/
theorem runRules_digit_eq {s : State} (i : Instr) (hv : s.cfg.Valid) (hi : s.Inv) (hd : s.inDigit = true) :
    runRules ((if s.cnt = 0 then [Instr.digitWrite] else []) ++ [i]) s = exec i s.writeDueDigit := by
  by_cases h0 : s.cnt = 0
  · have hw : exec .digitWrite s = .next s.writeDigit := rule_fires hv hi _ (by simp [hd, h0])
    rw [if_pos h0, List.singleton_append, runRules_cons, hw, andThen_of_next, runRules_singleton,
      State.writeDueDigit_of_first h0]
  · rw [if_neg h0, List.nil_append, runRules_singleton, State.writeDueDigit_of_not_first h0]

/-- An edge that has a meaning steps to where its rules lead. -/
theorem step_of_runRules {s u : State} (hc : s.CanStep) (h : runRules s.fetch s.beginEdge = .next u) :
    step s = .next u.endEdge := by
  obtain ⟨hv, ho, hcan⟩ := hc
  rw [step_eq_edge, edge_of_canStep hv ho hcan, h, andThen_of_next]

/-- An edge that has a meaning steps to the state of its case. With `edgeCase_of_step`, `EdgeCase` is the step. -/
theorem step_of_edgeCase {s t : State} (hc : s.CanStep) (h : EdgeCase s t) : step s = .next t := by
  obtain ⟨(hv : s.beginEdge.cfg.Valid), -, hcan⟩ := id hc
  have hb : s.inputs.rst = false → s.beginEdge.Inv := fun hrst => beginEdge_inv (hcan.resolve_left (by simp [hrst]))
  cases h with
  | reset hrst =>
    exact step_of_runRules hc (by rw [fetch_reset hrst, runRules_singleton, exec_reset _ hv])
  | init hrst hrun =>
    refine step_of_runRules hc ?_
    rw [fetch_init hrst hrun, runRules_singleton]
    exact rule_fires hv (hb hrst) _ (decide_eq_true hrun)
  | halted hrst hhalt =>
    refine step_of_runRules hc ?_
    rw [fetch_halted hrst hhalt, runRules_singleton]
    exact rule_fires hv (hb hrst) _ hhalt
  | quit hrst hin hq =>
    refine step_of_runRules hc ?_
    rw [fetch_input hrst hin, runRules_singleton]
    exact (exec_keyRow (s := s.beginEdge) hv (hb hrst) hin).trans (congrArg _ (if_pos hq))
  | input hrst hin hq =>
    refine step_of_runRules hc ?_
    rw [fetch_input hrst hin, runRules_singleton]
    exact (exec_keyRow (s := s.beginEdge) hv (hb hrst) hin).trans (congrArg _ (if_neg (ne_true_of_eq_false hq)))
  | advance hrst hd hlast =>
    obtain ⟨hd', hcnt', hcfg'⟩ := State.writeDueDigit_sequencer s.beginEdge
    refine step_of_runRules hc ?_
    rw [fetch_digit hrst hd, if_pos hlast]
    refine (runRules_digit_eq (s := s.beginEdge) _ hv (hb hrst) hd).trans (rule_fires (hcfg' ▸ hv) ?_ _ ?_)
    · exact writeDueDigit_inv hv (hb hrst) hd
    · simp [hd', hcnt', hcfg', hlast, show s.beginEdge.inDigit = true from hd]
  | dwell hrst hd hlt =>
    obtain ⟨hd', hcnt', hcfg'⟩ := State.writeDueDigit_sequencer s.beginEdge
    refine step_of_runRules hc ?_
    rw [fetch_digit hrst hd, if_neg hlt.ne]
    refine (runRules_digit_eq (s := s.beginEdge) _ hv (hb hrst) hd).trans (rule_fires (hcfg' ▸ hv) ?_ _ ?_)
    · exact writeDueDigit_inv hv (hb hrst) hd
    · simp [hd', hcnt', hcfg', hlt, show s.beginEdge.inDigit = true from hd]

/-! ### The two button bits -/

/-- The bits that 20_memory.md R37 does not reserve: UP and DOWN. -/
theorem and_three_eq_iff (b c : Byte) :
    b &&& 0x03 = c &&& 0x03 ↔ b.getLsbD 0 = c.getLsbD 0 ∧ b.getLsbD 1 = c.getLsbD 1 := by
  constructor
  · intro h
    have bit : ∀ i, (b &&& 0x03).getLsbD i = (c &&& 0x03).getLsbD i := fun i => congrArg (·.getLsbD i) h
    exact ⟨by simpa using bit 0, by simpa using bit 1⟩
  · rintro ⟨h0, h1⟩
    refine BitVec.eq_of_getLsbD_eq fun i hi => ?_
    rw [BitVec.getLsbD_and, BitVec.getLsbD_and]
    rcases i with _ | _ | i
    · rw [h0]
    · rw [h1]
    · have hmask : (0x03 : Byte).getLsbD (i + 2) = false := by
        have hlt : i < 6 := by omega
        interval_cases i <;> rfl
      rw [hmask, Bool.and_false, Bool.and_false]

/-- The edges of the two buttons are functions of their bits alone. -/
theorem detectEdges_buttons {b c p q : Byte} (hb : b &&& 0x03 = c &&& 0x03) (hp : p &&& 0x03 = q &&& 0x03) :
    detectEdges b p &&& 0x03 = detectEdges c q &&& 0x03 := by
  rw [and_three_eq_iff] at hb hp ⊢
  obtain ⟨hb0, hb1⟩ := hb
  obtain ⟨hp0, hp1⟩ := hp
  simp only [detectEdges, BitVec.getLsbD_and, BitVec.getLsbD_not, hb0, hb1, hp0, hp1, and_self]

theorem counterUpdate_buttons {e f : Byte} (h : e &&& 0x03 = f &&& 0x03) (kc : Cmd) (v : CounterValue) :
    counterUpdate kc e v = counterUpdate kc f v := by
  obtain ⟨h0, h1⟩ := (and_three_eq_iff e f).1 h
  simp only [counterUpdate, applyUp, applyDown, h0, h1]

/-! ### Inputs that differ at most in reserved bits -/

theorem SameButReserved.ports {i j : Inputs} (h : SameButReserved i j) :
    j.rst = i.rst ∧ j.devOk = i.devOk ∧ j.keyValid = i.keyValid ∧ j.keyByte = i.keyByte ∧ j.btnValid = i.btnValid := by
  rw [h.1]
  exact ⟨rfl, rfl, rfl, rfl, rfl⟩

theorem SameButReserved.frameEdges_buttons {i j : Inputs} (h : SameButReserved i j) {p q : Byte} (hp : p &&& 0x03 = q &&& 0x03) :
    frameEdges i p &&& 0x03 = frameEdges j q &&& 0x03 := by
  obtain ⟨-, -, -, -, hvalid⟩ := h.ports
  unfold frameEdges
  rw [hvalid]
  split
  · exact detectEdges_buttons h.2 hp
  · rfl

/-- The samples recorded are the same event without the reserved bits. -/
theorem SameButReserved.dropReserved_sample {i j : Inputs} (h : SameButReserved i j) :
    Event.dropReserved (.btnSampled (sampleOf i)) = Event.dropReserved (.btnSampled (sampleOf j)) := by
  obtain ⟨-, -, -, -, hvalid⟩ := h.ports
  unfold sampleOf
  rw [hvalid]
  split
  · exact congrArg (fun b => Event.btnSampled (some b)) h.2
  · rfl

/-- Dropping the reserved bits of the samples loses no word sent. -/
theorem writesOf_dropReserved (ev : List Event) : writesOf (ev.map Event.dropReserved) = writesOf ev := by
  rw [writesOf, List.filterMap_map]
  refine List.filterMap_congr fun e _ => ?_
  rcases e with b | (_ | m) | w | code <;> rfl

/-! ### Agreement within an edge -/

/-- Two states within an edge that differ at most in reserved button bits. Besides what `State.AgreeButReserved` leaves
free, the values handed on within the cycle may differ: the edge mask does, in bits 7:2. `State.AgreeButReserved.inEdge` and
`AgreeInEdge.endEdge` tie it to the statement's relation at the ends of the edge. -/
structure AgreeInEdge (s t : State) : Prop where
  frame : t = { s with prev := t.prev, stim := t.stim, trace := t.trace, loc := t.loc }
  prev : s.prev &&& 0x03 = t.prev &&& 0x03
  trace : s.trace.map Event.dropReserved = t.trace.map Event.dropReserved
  inputAt : ∀ j, SameButReserved (s.inputAt j) (t.inputAt j)

namespace AgreeInEdge

variable {s t : State}

theorem inputs (h : AgreeInEdge s t) : SameButReserved s.inputs t.inputs := h.inputAt 0

theorem key_eq (h : AgreeInEdge s t) : t.key = s.key := by
  obtain ⟨-, -, hvalid, hbyte, -⟩ := h.inputs.ports
  rw [State.key, State.key, hvalid, hbyte]

theorem trace_append (h : AgreeInEdge s t) {ev ev' : List Event}
    (he : ev.map Event.dropReserved = ev'.map Event.dropReserved) :
    (s.trace ++ ev).map Event.dropReserved = (t.trace ++ ev').map Event.dropReserved := by
  rw [List.map_append, List.map_append, h.trace, he]

theorem beginEdge (h : AgreeInEdge s t) : AgreeInEdge s.beginEdge t.beginEdge := by
  have huntaken : t.untaken = s.untaken := by
    obtain ⟨-, -, hvalid, hbyte, -⟩ := h.inputs.ports
    have hrdy : t.outputs.keyRdy = s.outputs.keyRdy := by rw [h.frame]; rfl
    rw [State.untaken, State.untaken, hvalid, hbyte, hrdy]
  refine ⟨?_, h.prev, h.trace, h.inputAt⟩
  rw [State.beginEdge, huntaken, h.frame]
  rfl

theorem resetRegisters (h : AgreeInEdge s t) : AgreeInEdge s.resetRegisters t.resetRegisters := by
  refine ⟨?_, rfl, h.trace, h.inputAt⟩
  rw [h.frame]
  rfl

theorem hold (h : AgreeInEdge s t) : AgreeInEdge s.hold t.hold := by
  refine ⟨?_, h.prev, h.trace, h.inputAt⟩
  rw [h.frame]
  rfl

theorem stepDwell (h : AgreeInEdge s t) : AgreeInEdge s.stepDwell t.stepDwell := by
  refine ⟨?_, h.prev, h.trace, h.inputAt⟩
  rw [h.frame]
  rfl

theorem startUp (h : AgreeInEdge s t) : AgreeInEdge s.startUp t.startUp := by
  obtain ⟨-, hdev, -⟩ := h.inputs.ports
  unfold State.startUp
  rw [hdev]
  split
  · refine ⟨?_, h.prev, h.trace, h.inputAt⟩
    rw [h.frame]
  · refine ⟨?_, h.prev, h.trace_append rfl, h.inputAt⟩
    rw [h.frame]
    rfl

/-- The events of taking a key and a sample, and then `ev`. -/
theorem trace_keyCycle (h : AgreeInEdge s t) (ev : List Event) :
    (s.trace ++ ((if s.inputs.keyValid = true then [Event.keyTaken s.inputs.keyByte] else []) ++
      Event.btnSampled (sampleOf s.inputs) :: ev)).map Event.dropReserved =
    (t.trace ++ ((if t.inputs.keyValid = true then [Event.keyTaken t.inputs.keyByte] else []) ++
      Event.btnSampled (sampleOf t.inputs) :: ev)).map Event.dropReserved := by
  obtain ⟨-, -, hvalid, hbyte, -⟩ := h.inputs.ports
  refine h.trace_append ?_
  rw [hvalid, hbyte, List.map_append, List.map_append, List.map_cons, List.map_cons, h.inputs.dropReserved_sample]

theorem quitCycle (h : AgreeInEdge s t) : AgreeInEdge s.takeKey.quitFrame t.takeKey.quitFrame := by
  rw [takeKey_quitFrame, takeKey_quitFrame]
  refine ⟨?_, h.prev, h.trace_keyCycle _, h.inputAt⟩
  rw [h.frame]

theorem framePrev (h : AgreeInEdge s t) : s.framePrev &&& 0x03 = t.framePrev &&& 0x03 := by
  obtain ⟨-, -, -, -, hvalid⟩ := h.inputs.ports
  unfold State.framePrev
  rw [hvalid]
  split
  · exact h.inputs.2
  · exact h.prev

/-- The two samples make edge masks that may differ in bits 7:2, which COUNTER_UPDATE does not read (42_counter.md R91). -/
theorem frameValue_eq (h : AgreeInEdge s t) (kc : Cmd) :
    counterUpdate kc (frameEdges t.inputs t.prev) t.value =
      counterUpdate kc (frameEdges s.inputs s.prev) s.value := by
  have hvalue : t.value = s.value := by rw [h.frame]
  rw [hvalue, counterUpdate_buttons (h.inputs.frameEdges_buttons h.prev)]

theorem inputCycle (h : AgreeInEdge s t) (hq : s.key.2 = false) : AgreeInEdge s.takeKey.inputCycle t.takeKey.inputCycle := by
  rw [takeKey_inputCycle s hq, takeKey_inputCycle t (h.key_eq ▸ hq), h.key_eq]
  refine ⟨?_, h.framePrev, h.trace_keyCycle [], h.inputAt⟩
  rw [State.afterInput, h.frameValue_eq, h.frame]
  rfl

theorem writeDigit (h : AgreeInEdge s t) : AgreeInEdge s.writeDigit t.writeDigit := by
  have hword : digitWord t.cfg t.value t.k = digitWord s.cfg s.value s.k := by rw [h.frame]
  rw [writeDigit_eq, writeDigit_eq, hword]
  refine ⟨?_, h.prev, h.trace_append rfl, h.inputAt⟩
  rw [h.frame]

theorem writeDueDigit (h : AgreeInEdge s t) : AgreeInEdge s.writeDueDigit t.writeDueDigit := by
  have hcnt : t.cnt = s.cnt := by rw [h.frame]
  unfold State.writeDueDigit
  rw [hcnt]
  split
  · exact h.writeDigit
  · exact h

theorem advanceDigit (h : AgreeInEdge s t) : AgreeInEdge s.advanceDigit t.advanceDigit := by
  have hk : t.k = s.k := by rw [h.frame]
  unfold State.advanceDigit
  rw [hk]
  split
  all_goals
    refine ⟨?_, h.prev, h.trace, h.inputAt⟩
    rw [h.frame]

theorem endEdge (h : AgreeInEdge s t) : s.endEdge.AgreeButReserved t.endEdge := by
  refine ⟨?_, h.prev, h.trace, fun j => ?_⟩
  · rw [h.frame]
    rfl
  · rw [endEdge_inputAt, endEdge_inputAt]
    exact h.inputAt (j + 1)

end AgreeInEdge

theorem State.AgreeButReserved.inEdge {s t : State} (h : s.AgreeButReserved t) : AgreeInEdge s t := by
  obtain ⟨hframe, hprev, htrace, hinputs⟩ := h
  exact ⟨by rw [hframe], hprev, htrace, hinputs⟩

theorem State.AgreeButReserved.outputs_eq {s t : State} (h : s.AgreeButReserved t) :
    s.value = t.value ∧ s.outputs = t.outputs := by
  rw [h.1]
  exact ⟨rfl, rfl⟩

theorem State.AgreeButReserved.writesOf_eq {s t : State} (h : s.AgreeButReserved t) : writesOf s.trace = writesOf t.trace := by
  obtain ⟨-, -, htrace, -⟩ := h
  rw [← writesOf_dropReserved s.trace, htrace, writesOf_dropReserved]

/-! ### The edge as a simulation -/

/-- A case of an edge open to one of two agreeing states is open to the other, and leads to states that agree again. -/
theorem EdgeCase.of_agree {s t s' : State} (h : s.AgreeButReserved t) (hs : EdgeCase s s') :
    ∃ t', EdgeCase t t' ∧ s'.AgreeButReserved t' := by
  have hkey : t.key = s.key := h.inEdge.key_eq
  have hb : AgreeInEdge s.beginEdge t.beginEdge := h.inEdge.beginEdge
  obtain ⟨hrst', -⟩ := h.inEdge.inputs.ports
  have hseq : t.run = s.run ∧ t.isHalted = s.isHalted ∧ t.inInput = s.inInput ∧ t.inDigit = s.inDigit ∧
      t.cnt = s.cnt ∧ t.cfg = s.cfg := by
    rw [h.1]
    exact ⟨rfl, rfl, rfl, rfl, rfl, rfl⟩
  obtain ⟨hrun', hhalt', hin', hdigit', hcnt', hcfg'⟩ := hseq
  cases hs with
  | reset hrst => exact ⟨_, .reset (hrst'.trans hrst), hb.resetRegisters.endEdge⟩
  | init hrst hrun => exact ⟨_, .init (hrst'.trans hrst) (hrun'.trans hrun), hb.startUp.endEdge⟩
  | halted hrst hhalt => exact ⟨_, .halted (hrst'.trans hrst) (hhalt'.trans hhalt), hb.hold.endEdge⟩
  | quit hrst hin hq =>
    exact ⟨_, .quit (hrst'.trans hrst) (hin'.trans hin) (hkey ▸ hq), hb.quitCycle.endEdge⟩
  | input hrst hin hq =>
    exact ⟨_, .input (hrst'.trans hrst) (hin'.trans hin) (hkey ▸ hq), (hb.inputCycle hq).endEdge⟩
  | advance hrst hd hlast =>
    exact ⟨_, .advance (hrst'.trans hrst) (hdigit'.trans hd) (by rw [hcnt', hcfg', hlast]),
      hb.writeDueDigit.advanceDigit.endEdge⟩
  | dwell hrst hd hlt =>
    exact ⟨_, .dwell (hrst'.trans hrst) (hdigit'.trans hd) (by rw [hcnt', hcfg']; exact hlt),
      hb.writeDueDigit.stepDwell.endEdge⟩

/-- Settles O49: the agreement is a simulation over the cases of an edge, and the cases are the step. -/
theorem reservedButtonBitsHaveNoEffect : Obligations.ReservedButtonBitsHaveNoEffect := by
  intro s t s' h hc hs
  obtain ⟨t', ht, h'⟩ := EdgeCase.of_agree h (edgeCase_of_step hs)
  obtain ⟨hvalue, houtputs⟩ := h'.outputs_eq
  exact ⟨t', step_of_edgeCase hc ht, h', hvalue, houtputs, h'.writesOf_eq⟩

end Sys2Proof.Machine
end

section
/-! PROOFS. The encodings of 30_encoding.md: the decimal digits of a value (R64), the decimal point (R57), the STIM word of a FRAME line
(R68) and the pseudo-lines of a stimulus program (R69). -/

namespace Sys2Proof.Machine

/-! ### Digits -/

theorem digit_val (v : CounterValue) (k : BitVec 2) : (digit v k).val = v.toNat / digitDivisor k % 10 := rfl

/-- Settles O52: the four divisors make each digit a quotient mod 10, and the rest is decimal arithmetic. -/
theorem digitsGiveTheValueBack : Obligations.DigitsGiveTheValueBack := by
  intro v hv
  have h0 : (digit v 0).val = v.toNat / 1000 % 10 := digit_val v 0
  have h1 : (digit v 1).val = v.toNat / 100 % 10 := digit_val v 1
  have h2 : (digit v 2).val = v.toNat / 10 % 10 := digit_val v 2
  have h3 : (digit v 3).val = v.toNat % 10 := by
    rw [digit_val, show digitDivisor 3 = 1 from rfl, Nat.div_one]
  refine ⟨h0, h1, h2, h3, ?thousands, fun k => ?leadingZeros, ?weightedSum⟩
  case thousands => omega
  case leadingZeros => exact Fin.ext (by rw [digit_val]; simp)
  case weightedSum => omega

/-! ### The decimal point -/

theorem digitWord_pat (c : Config) (v : CounterValue) (k : BitVec 2) :
    wordPat (digitWord c v k) = c.segTable.get (digit v k) := displayWord_pat _ _

/-- A DIGIT cycle strobes only the word of the digit it is at. -/
theorem writeDueDigit_disp {s : State} (hs : s.we = false) (hwe : s.writeDueDigit.we = true) :
    s.writeDueDigit.disp = digitWord s.cfg s.value s.k := by
  by_cases h0 : s.cnt = 0
  · rw [State.writeDueDigit_of_first h0, writeDigit_eq]
  · rw [State.writeDueDigit_of_not_first h0, hs] at hwe
    cases hwe

/-- The words a step can send: the blank word of a quit, and the word of the digit it is at. -/
theorem step_sends_blank_or_digit {s t : State} (h : step s = .next t) (hwe : t.we = true) :
    t.disp = 0x0000 ∨ t.disp = digitWord s.cfg s.value s.k := by
  cases edgeCase_of_step h with
  | reset => cases hwe
  | init =>
    obtain ⟨hidle, -, -⟩ := startUp_sendsNone (s := s.beginEdge) rfl
    exact absurd (hidle.symm.trans hwe) nofun
  | halted => cases hwe
  | quit =>
    left
    show s.beginEdge.takeKey.quitFrame.disp = 0x0000
    rw [quitFrame_eq]
  | input _ _ hq =>
    obtain ⟨hidle, -, -⟩ := keyCycle_sendsNone (s := s.beginEdge) hq
    exact absurd (hidle.symm.trans hwe) nofun
  | advance =>
    obtain ⟨hwe', hdisp, -⟩ := advanceDigit_outputs s.beginEdge.writeDueDigit
    exact Or.inr (hdisp.trans (writeDueDigit_disp (s := s.beginEdge) rfl (hwe'.symm.trans hwe)))
  | dwell => exact Or.inr (writeDueDigit_disp (s := s.beginEdge) rfl hwe)

/-- Bit 7, the decimal point, is off in each of the ten entries of 30_encoding.md R56. -/
theorem standardSegTable_dp_off : ∀ d : Fin 10, (standardSegTable.get d).getLsbD 7 = true := by decide

/-- Settles O10: a word sent is blank, or its pattern is an entry of the table. -/
theorem decimalPointNeverLit : Obligations.DecimalPointNeverLit := by
  refine ⟨standardSegTable_dp_off, fun s t htable h hwe => ?_⟩
  rcases step_sends_blank_or_digit h hwe with hblank | hdigit
  · left
    rw [hblank]
    decide
  · right
    rw [hdigit, digitWord_pat, htable]
    exact standardSegTable_dp_off _

/-! ### One half of a STIM word -/

/-- The half of a STIM word that holds a port: 7 reserved bits, the valid bit, the byte or 0 (30_encoding.md R68). `stimWord_eq` ties it
to the model. -/
def portHalf (port : Option Byte) : BitVec 16 := 0#7 ++ BitVec.ofBool port.isSome ++ port.getD 0

theorem portHalf_byte (port : Option Byte) : (portHalf port).extractLsb' 0 8 = port.getD 0 :=
  BitVec.extractLsb'_append_eq_right

theorem portHalf_valid (port : Option Byte) : (portHalf port).getLsbD 8 = port.isSome := by
  rw [portHalf, BitVec.getLsbD_append, if_neg (by decide), BitVec.getLsbD_append, if_pos (by decide), BitVec.getLsbD_ofBool]
  simp

theorem portHalf_reserved (port : Option Byte) : (portHalf port).extractLsb' 9 7 = 0 := by
  rw [portHalf, BitVec.extractLsb'_append_eq_of_le (by decide)]
  exact BitVec.extractLsb'_append_eq_left

theorem portHalf_and_reserved (port : Option Byte) : portHalf port &&& 0xFE00 = 0 := by
  have hmask : (0xFE00 : BitVec 16) = 0x7F#7 ++ 0#1 ++ 0#8 := rfl
  rw [portHalf, hmask, BitVec.and_append, BitVec.and_append, BitVec.zero_and, BitVec.and_zero, BitVec.and_zero]
  rfl

/-! ### The STIM word is its two halves -/

theorem keyField_eq (key : Byte) : (0x00000100 : StimWord) ||| key.zeroExtend 32 = 0#16 ++ portHalf (some key) := by
  have hvalid : (0x00000100 : StimWord) = 0#16 ++ (0#7 ++ 1#1 ++ 0#8) := rfl
  have hbyte : key.zeroExtend 32 = 0#16 ++ (0#7 ++ 0#1 ++ key) :=
    (BitVec.setWidth_eq_append (show 8 ≤ 32 by decide)).trans (BitVec.append_assoc (x₁ := 0#16) (x₂ := 0#8) (x₃ := key))
  rw [hvalid, hbyte, BitVec.or_append, BitVec.or_append, BitVec.or_append, BitVec.zero_or, BitVec.or_zero, BitVec.zero_or]
  rfl

theorem zero_append_shiftLeft (x : BitVec 16) : (0#16 ++ x) <<< 16 = x ++ 0#16 := by
  refine BitVec.eq_of_getLsbD_eq fun i hi => ?_
  rw [BitVec.getLsbD_shiftLeft, BitVec.getLsbD_append, BitVec.getLsbD_append]
  by_cases h : i < 16
  · simp [h]
  · simpa [h, hi] using BitVec.lt_of_getLsbD

theorem btnField_eq (btn : Byte) :
    (0x01000000 : StimWord) ||| (btn.zeroExtend 32 <<< 16) = portHalf (some btn) ++ 0#16 := by
  have hvalid : (0x01000000 : StimWord) = (0x00000100 : StimWord) <<< 16 := rfl
  rw [hvalid, ← BitVec.shiftLeft_or_distrib, keyField_eq, zero_append_shiftLeft]

theorem stimWord_eq (f : FrameLine) : stimWord f = portHalf f.btn ++ portHalf f.key := by
  obtain ⟨key, btn⟩ := f
  have hkey : (if key.isSome then 0x00000100 ||| (key.getD 0).zeroExtend 32 else 0 : StimWord) = 0#16 ++ portHalf key := by
    cases key with
    | none => rfl
    | some k => exact keyField_eq k
  have hbtn : (if btn.isSome then 0x01000000 ||| ((btn.getD 0).zeroExtend 32 <<< 16) else 0 : StimWord) =
      portHalf btn ++ 0#16 := by
    cases btn with
    | none => rfl
    | some b => exact btnField_eq b
  rw [stimWord, stimOfInputs]
  simp only [hkey, hbtn]
  rw [BitVec.or_append, BitVec.zero_or, BitVec.or_zero]

/-! ### The fields of a STIM word -/

/-- A field of the low half is a field of the key port. -/
theorem stimWord_extract_key (f : FrameLine) {start len : Nat} (h : start + len ≤ 16) :
    (stimWord f).extractLsb' start len = (portHalf f.key).extractLsb' start len := by
  rw [stimWord_eq, BitVec.extractLsb'_append_eq_of_add_le h]

/-- A field of the high half is a field of the button port. -/
theorem stimWord_extract_btn (f : FrameLine) {start len : Nat} (h : 16 ≤ start) :
    (stimWord f).extractLsb' start len = (portHalf f.btn).extractLsb' (start - 16) len := by
  rw [stimWord_eq, BitVec.extractLsb'_append_eq_of_le h]

theorem stimWord_keyByte (f : FrameLine) : (stimWord f).extractLsb' 0 8 = f.key.getD 0 :=
  (stimWord_extract_key f (by decide)).trans (portHalf_byte f.key)

theorem stimWord_keyValid (f : FrameLine) : (stimWord f).getLsbD 8 = f.key.isSome := by
  rw [stimWord_eq, BitVec.getLsbD_append, if_pos (by decide), portHalf_valid]

theorem stimWord_keyReserved (f : FrameLine) : (stimWord f).extractLsb' 9 7 = 0 :=
  (stimWord_extract_key f (by decide)).trans (portHalf_reserved f.key)

theorem stimWord_btnByte (f : FrameLine) : (stimWord f).extractLsb' 16 8 = f.btn.getD 0 :=
  (stimWord_extract_btn f (by decide)).trans (portHalf_byte f.btn)

theorem stimWord_btnValid (f : FrameLine) : (stimWord f).getLsbD 24 = f.btn.isSome := by
  rw [stimWord_eq, BitVec.getLsbD_append, if_neg (by decide)]
  exact portHalf_valid f.btn

theorem stimWord_btnReserved (f : FrameLine) : (stimWord f).extractLsb' 25 7 = 0 :=
  (stimWord_extract_btn f (by decide)).trans (portHalf_reserved f.btn)

/-- The decoder's mask of the reserved fields finds nothing in a STIM word. -/
theorem stimWord_and_reserved (f : FrameLine) : stimWord f &&& 0xFE00FE00 = 0 := by
  have hmask : (0xFE00FE00 : StimWord) = 0xFE00#16 ++ 0xFE00#16 := rfl
  rw [stimWord_eq, hmask, BitVec.and_append]
  exact congrArg₂ (· ++ ·) (portHalf_and_reserved f.btn) (portHalf_and_reserved f.key)

theorem decode_frameKey_stimWord (f : FrameLine) :
    decode .frameKey (stimWord f) = .ok (decodeKey f.key.isSome (f.key.getD 0)) := by
  rw [decode, if_pos (stimWord_and_reserved f), stimWord_keyValid, stimWord_keyByte]

theorem decode_frameBtn_stimWord (f : FrameLine) :
    decode .frameBtn (stimWord f) = .ok (decodeBtn f.btn.isSome (f.btn.getD 0)) := by
  rw [decode, if_pos (stimWord_and_reserved f), stimWord_btnValid, stimWord_btnByte]

/-- Settles O3: each field is a field of one half, and the decoder reads those fields. -/
theorem stimWordFields : Obligations.StimWordFields :=
  ⟨fun f => ⟨stimWord_keyByte f, stimWord_keyValid f, stimWord_keyReserved f, stimWord_btnByte f, stimWord_btnValid f,
    stimWord_btnReserved f, decode_frameKey_stimWord f, decode_frameBtn_stimWord f⟩, rfl, rfl⟩

/-! ### Stimulus programs -/

theorem expandTimes_succ (expand : FrameLine → Option (List FrameLine)) (n : Nat) (last : FrameLine) :
    expandTimes expand (n + 1) last =
      (expand last).bind fun fs => (expandTimes expand n (fs.getLastD last)).map (fs ++ ·) := by
  rw [expandTimes]
  cases expand last <;> rfl

theorem expandFrom_cons (l : StimLine) (ls : List StimLine) (last : FrameLine) :
    expandFrom (l :: ls) last =
      (expandLine l last).bind fun fs => (expandFrom ls (fs.getLastD last)).map (fs ++ ·) := by
  rw [expandFrom]
  cases expandLine l last <;> rfl

/-- The second part of a program goes on from the last FRAME line of the first. -/
theorem expandFrom_append (ls ls' : List StimLine) (last : FrameLine) :
    expandFrom (ls ++ ls') last =
      (expandFrom ls last).bind fun fs => (expandFrom ls' (fs.getLastD last)).map (fs ++ ·) := by
  induction ls generalizing last with
  | nil => simp [expandFrom]
  | cons l ls ih =>
    rw [List.cons_append, expandFrom_cons, expandFrom_cons]
    cases expandLine l last with
    | none => rfl
    | some fs =>
      simp only [Option.bind_some, ih]
      cases expandFrom ls (fs.getLastD last) with
      | none => rfl
      | some gs => simp [Function.comp_def]

theorem expandLine_repeated (n : Nat) (l : StimLine) (last : FrameLine) :
    expandLine (.repeated n l) last = expandFrom (List.replicate n l) last := by
  rw [expandLine]
  induction n generalizing last with
  | zero => rfl
  | succ n ih =>
    rw [expandTimes_succ, List.replicate_succ, expandFrom_cons]
    simp only [ih]

theorem expandFrom_repeated (n : Nat) (l : StimLine) (ls : List StimLine) (last : FrameLine) :
    expandFrom (.repeated n l :: ls) last = expandFrom (List.replicate n l ++ ls) last := by
  rw [expandFrom_cons, expandLine_repeated, expandFrom_append]

theorem expandFrom_frame (f last : FrameLine) (ls : List StimLine) :
    expandFrom (.frame f :: ls) last = (expandFrom ls f).map (f :: ·) := rfl

/-- A line that expands to one FRAME line does in a program what that FRAME line does. -/
theorem expandFrom_of_expandLine {l : StimLine} {f last : FrameLine} (h : expandLine l last = some [f]) (ls : List StimLine) :
    expandFrom (l :: ls) last = expandFrom (.frame f :: ls) last := by
  rw [expandFrom_cons, h, expandFrom_cons, expandLine]

theorem expandLine_key {last : FrameLine} {B : Byte} (h : last.btn = some B) (k : Option Byte) :
    expandLine (.key k) last = some [{ key := k, btn := some B }] := by
  rw [expandLine, h, Option.map_some]

theorem expandLine_idle {last : FrameLine} {B : Byte} (h : last.btn = some B) :
    expandLine .idle last = some [{ key := none, btn := some B }] := by
  rw [expandLine, h, Option.map_some]

theorem expandLine_press {last : FrameLine} {B : Byte} (h : last.btn = some B) (b : Byte) :
    expandLine (.press b) last = some [{ key := none, btn := some (B ||| b) }] := by
  rw [expandLine, h, Option.map_some]

theorem expandLine_release {last : FrameLine} {B : Byte} (h : last.btn = some B) (b : Byte) :
    expandLine (.release b) last = some [{ key := none, btn := some (B &&& ~~~b) }] := by
  rw [expandLine, h, Option.map_some]

/-- Settles O5: a pseudo-line has its own expansion, and in a program it does what that FRAME line does; REPEAT is an append. -/
theorem pseudoLineExpansions : Obligations.PseudoLineExpansions :=
  ⟨fun _ _ => rfl,
    fun _ k _ b h => ⟨expandLine_key h k, expandLine_idle h, expandLine_press h b, expandLine_release h b⟩,
    expandLine_repeated, fun _ => rfl, fun _ => rfl, expandFrom_frame,
    fun _ k _ b ls h => ⟨expandFrom_of_expandLine (expandLine_key h k) ls, expandFrom_of_expandLine (expandLine_idle h) ls,
      expandFrom_of_expandLine (expandLine_press h b) ls, expandFrom_of_expandLine (expandLine_release h b) ls⟩,
    expandFrom_repeated, by decide⟩

end Sys2Proof.Machine
end

section
/-! PROOFS. The Segment Encoder (40_segment_encoder.md): the inverse of its table (R74, R75), ENCODE of a digit (R71) and the refusal
of 10..15 (R73). -/

namespace Sys2Proof.Machine

/-! ### The inverse of the table -/

/-- The search finds an entry of the pattern. That it is the only one is `decodePattern_eq_some_iff`. -/
theorem get_of_decodePattern_eq_some {c : Config} {p : Pattern} {d : Fin 10} (h : decodePattern c p = some d) :
    c.segTable.get d = p := eq_of_beq (List.find?_some (p := fun d => c.segTable.get d == p) h)

theorem decodePattern_eq_none_iff (c : Config) (p : Pattern) :
    decodePattern c p = none ↔ ∀ d : Fin 10, c.segTable.get d ≠ p := by
  simp only [decodePattern, List.find?_eq_none, List.mem_finRange, forall_const, beq_iff_eq, ne_eq]

/-- The entries of an accepted table are distinct, so the digit found is the one asked for. -/
theorem decodePattern_eq_some_iff {c : Config} (hv : c.Valid) (p : Pattern) (d : Fin 10) :
    decodePattern c p = some d ↔ c.segTable.get d = p := by
  obtain ⟨-, hnodup, -⟩ := hv
  refine ⟨get_of_decodePattern_eq_some, fun hd => ?_⟩
  cases hfind : decodePattern c p with
  | none => exact absurd hd ((decodePattern_eq_none_iff c p).1 hfind d)
  | some d' =>
    have hd' : c.segTable.get d' = c.segTable.get d := (get_of_decodePattern_eq_some hfind).trans hd.symm
    rw [get_injective_of_nodup hnodup hd']

/-- Settles O8: a search that fails has tried every digit, and one that succeeds gives the only digit with the pattern. -/
theorem patternDecodeIsInverse : Obligations.PatternDecodeIsInverse :=
  ⟨fun _ p d hv => decodePattern_eq_some_iff hv p d, decodePattern_eq_none_iff,
    (decodePattern_eq_some_iff standard_valid _ _).2 rfl, (decodePattern_eq_none_iff _ _).2 (by decide),
    (decodePattern_eq_none_iff _ _).2 (by decide)⟩

theorem decodePattern_encodeDigit {c : Config} (hv : c.Valid) (d : Fin 10) : decodePattern c (encodeDigit c d) = some d :=
  (decodePattern_eq_some_iff hv _ d).2 rfl

/-- Settles O9: the round trip is `decodePattern_eq_some_iff` at the table's own entry, and an accepted configuration has an injective
table. -/
theorem segmentRoundTrip : Obligations.SegmentRoundTrip := by
  refine ⟨fun c d hv => decodePattern_encodeDigit hv d, ?distinct, fun s hnodup => ?refused⟩
  case distinct =>
    obtain ⟨-, hnodup, -⟩ := standard_valid
    exact hnodup
  case refused =>
    have hv : ¬ s.cfg.Valid := fun ⟨_, h, _⟩ => hnodup h
    exact (step_eq_edge s).trans (edge_of_invalid hv)

/-! ### ENCODE of a digit -/

theorem exec_encode_of_ready {s : State} (h : s.Ready) {d : BitVec 4} (hd : DigitOk d) :
    exec (.encode d) s = .next (s.encodeAt ⟨d.toNat, hd⟩) := by
  obtain ⟨hv, hi⟩ := h
  rw [exec_encode s d hd, rule_fires hv hi _ rfl]

/-- Each digit of 30_encoding.md R56 lights at least the two segments that digit 1 lights. -/
theorem two_le_standardSegTable_lit :
    ∀ d : Fin 10, 2 ≤ (List.finRange 8).countP (segmentLit (standardSegTable.get d)) := by decide

/-- Settles O6: ENCODE fires in every cycle, and the corners are entries of the table. -/
theorem encodeInstruction : Obligations.EncodeInstruction :=
  ⟨fun _ _ hd h => exec_encode_of_ready h hd, rfl, rfl, rfl, standardSegTable_dp_off, two_le_standardSegTable_lit, by decide⟩

/-! ### ENCODE of 10..15 -/

/-- A word extended from `w` bits has none above them. -/
theorem zeroExtend_ushiftRight {w v : Nat} (x : BitVec w) (h : w ≤ v) : x.zeroExtend v >>> w = 0 := by
  rw [BitVec.zeroExtend, ← BitVec.setWidth_ushiftRight h, BitVec.ushiftRight_eq_zero le_rfl, BitVec.setWidth_zero]
  rfl

theorem zeroExtend_extractLsb' {w v : Nat} (x : BitVec w) (h : w ≤ v) : (x.zeroExtend v).extractLsb' 0 w = x := by
  rw [BitVec.zeroExtend, BitVec.extractLsb'_setWidth_of_le (by omega), BitVec.extractLsb'_eq_self]

/-- At the encoder's slot only the range of the digit decides. -/
theorem decode_encoder (d : BitVec 4) :
    decode .encoder (d.zeroExtend 32) = if DigitOk d then .ok (.encode d) else .error .digitOutOfRange := by
  rw [decode, if_neg (not_not_intro (zeroExtend_ushiftRight d (by decide))), zeroExtend_extractLsb' d (by decide)]

/-- Settles O7: the decoder and the encoder check the range first of all, and a `Fin 10` is within it. -/
theorem encoderRefusesTenToFifteen : Obligations.EncoderRefusesTenToFifteen := by
  intro d hd
  have hbad : ¬ DigitOk d := Nat.not_lt.2 hd
  refine ⟨(decode_encoder d).trans (if_neg hbad), fun s => exec_encode_refused s d hbad, fun v k => ?_⟩
  exact ((digit v k).isLt.trans_le hd).ne

end Sys2Proof.Machine
end

section
/-! PROOFS. The Edge Detector (41_edge_detector.md): DETECT (R80), the button copy `prev` over a clock edge (R82, R83), and what follows over
the frames of a stimulus program (R84). -/

namespace Sys2Proof.Machine

/-! ### The edge mask -/

/-- A bit of the mask: newly set, so set now and not before. -/
theorem detectEdges_getLsbD_iff (cur prev : Byte) {i : Nat} (hi : i < 8) :
    (detectEdges cur prev).getLsbD i = true ↔ cur.getLsbD i = true ∧ prev.getLsbD i = false := by
  simp [detectEdges, hi]

theorem detectEdges_self (m : Byte) : detectEdges m m = 0 := BitVec.and_not_self m

theorem detectEdges_of_released (p : Byte) : detectEdges 0x00 p = 0 := BitVec.zero_and

/-- After a released sample every pressed button is an edge. -/
theorem detectEdges_after_released (b : Byte) : detectEdges b 0x00 = b := BitVec.and_allOnes

/-- Settles O18: DETECT fires in every cycle, and `cur & ~prev` is computed bit by bit. -/
theorem detectInstruction : Obligations.DetectInstruction := by
  refine ⟨fun s cur ⟨hv, hi⟩ => ?fires, fun cur prev i hi => detectEdges_getLsbD_iff cur prev hi, detectEdges_self,
    detectEdges_of_released, detectEdges_after_released 0xFF, by decide⟩
  case fires => rw [exec_detect, rule_fires hv hi _ rfl]; rfl

/-! ### The two button rows -/

theorem btnRow_eq_btnSample {s : State} (hb : s.inputs.btnValid = true) : s.btnRow = .btnSample s.inputs.btn := by
  rw [State.btnRow, decodeBtn, if_pos hb]

theorem btnRow_eq_readError {s : State} (hb : s.inputs.btnValid = false) : s.btnRow = .readError := by
  rw [State.btnRow, decodeBtn, if_neg (ne_true_of_eq_false hb)]

theorem exec_btnSample_of_good {s : State} (h : s.Ready) (hs : s.takesInput = true) (hb : s.inputs.btnValid = true) :
    exec (.btnSample s.inputs.btn) s = .next (s.goodSample s.inputs.btn) := by
  obtain ⟨hv, hi⟩ := h
  rw [exec_btnSample, rule_fires hv hi _ (by simp [hs, btnRow_eq_btnSample hb])]

theorem exec_readError_of_failed {s : State} (h : s.Ready) (hs : s.takesInput = true) (hb : s.inputs.btnValid = false) :
    exec .readError s = .next s.failedSample := by
  obtain ⟨hv, hi⟩ := h
  rw [exec_readError, rule_fires hv hi _ (by simp [hs, btnRow_eq_readError hb])]

/-! ### The value and the button copy over a clock edge -/

theorem takesInput_iff (s : State) : s.takesInput = true ↔ s.inInput = true ∧ s.key.2 = false := by
  simp [State.takesInput]

/-- In the INPUT cycle of a frame that does not quit, the clock edge is INPUT_CYCLE after the taking of the key. -/
theorem step_of_takesInput {s t : State} (h : step s = .next t) (hrst : s.inputs.rst = false) (hs : s.takesInput = true) :
    t = s.beginEdge.takeKey.inputCycle.endEdge := by
  obtain ⟨hv, ho, hcan, -⟩ := edge_next h
  obtain ⟨hin, hq⟩ := (takesInput_iff s).1 hs
  have hstep : step s = .next s.beginEdge.takeKey.inputCycle.endEdge := step_of_edgeCase ⟨hv, ho, hcan⟩ (.input hrst hin hq)
  injection h.symm.trans hstep

/-- Such an edge leaves the value and the button copy of the frame function (44_frame_control.md R124). -/
theorem step_frame {s t : State} (h : step s = .next t) (hrst : s.inputs.rst = false) (hs : s.takesInput = true) :
    t.value = s.frameValue ∧ t.prev = s.framePrev := by
  obtain ⟨-, hq⟩ := (takesInput_iff s).1 hs
  rw [step_of_takesInput h hrst hs, takeKey_inputCycle s.beginEdge hq]
  exact ⟨rfl, rfl⟩

theorem framePrev_of_good {s : State} (hb : s.inputs.btnValid = true) : s.framePrev = s.inputs.btn := if_pos hb

theorem framePrev_of_failed {s : State} (hb : s.inputs.btnValid = false) : s.framePrev = s.prev :=
  if_neg (ne_true_of_eq_false hb)

/-- Without an edge the key command alone acts. -/
theorem counterUpdate_no_edge (kc : Cmd) (v : CounterValue) : counterUpdate kc 0x00 v = applyCmd kc v := rfl

/-- A failed sample has no edge, so the key command alone acts. -/
theorem frameValue_of_failed {s : State} (hb : s.inputs.btnValid = false) : s.frameValue = applyCmd s.key.1 s.value := by
  rw [State.frameValue, frameEdges, if_neg (ne_true_of_eq_false hb), counterUpdate_no_edge]
  rfl

theorem startUp_prev (s : State) : s.startUp.prev = s.prev := by
  unfold State.startUp
  split <;> rfl

theorem writeDueDigit_prev (s : State) : s.writeDueDigit.prev = s.prev := by
  unfold State.writeDueDigit
  split <;> rfl

theorem advanceDigit_prev (s : State) : s.advanceDigit.prev = s.prev := by
  unfold State.advanceDigit
  split <;> rfl

/-- No cycle but the INPUT cycle of a frame that does not quit writes `prev`, reset apart. -/
theorem step_prev_of_not_takesInput {s t : State} (h : step s = .next t) (hrst : s.inputs.rst = false)
    (hs : s.takesInput = false) : t.prev = s.prev := by
  cases edgeCase_of_step h with
  | reset hr => exact absurd (hrst.symm.trans hr) nofun
  | init => exact startUp_prev s.beginEdge
  | halted => rfl
  | quit => rw [takeKey_quitFrame]; rfl
  | input _ hin hq => exact absurd (hs.symm.trans ((takesInput_iff s).2 ⟨hin, hq⟩)) nofun
  | advance => exact (advanceDigit_prev _).trans (writeDueDigit_prev s.beginEdge)
  | dwell => exact writeDueDigit_prev s.beginEdge

/-- Settles O19: the row is the good sample, and an edge writes `prev` by the frame function alone. -/
theorem btnSampleInstruction : Obligations.BtnSampleInstruction := by
  refine ⟨fun s h hs hb => exec_btnSample_of_good h hs hb, fun s t h hrst hs hb => ?written, fun s t h hrst hkept => ?kept⟩
  case written =>
    obtain ⟨-, hprev⟩ := step_frame h hrst hs
    exact hprev.trans (framePrev_of_good hb)
  case kept =>
    cases hs : s.takesInput with
    | false => exact step_prev_of_not_takesInput h hrst hs
    | true =>
      obtain ⟨-, hprev⟩ := step_frame h hrst hs
      exact hprev.trans (framePrev_of_failed (hkept.resolve_left (by simp [hs])))

/-! ### The frames of a stimulus program -/

/-- The ports of a FRAME line are its key and its sample (30_encoding.md R68). -/
theorem frameInputs_eq (f : FrameLine) :
    frameInputs f = { rst := false, devOk := false, keyValid := f.key.isSome, keyByte := f.key.getD 0,
                      btnValid := f.btn.isSome, btn := f.btn.getD 0 } := by
  rw [frameInputs, inputsOfStim, stimWord_keyValid, stimWord_keyByte, stimWord_btnValid, stimWord_btnByte]

theorem afterFrames_cons (v : CounterValue) (p : Byte) (f : FrameLine) (fs : List FrameLine) :
    afterFrames v p (f :: fs) = afterFrames (afterFrame (v, p) f).1 (afterFrame (v, p) f).2 fs := rfl

theorem afterFrames_append (v : CounterValue) (p : Byte) (fs fs' : List FrameLine) :
    afterFrames v p (fs ++ fs') = afterFrames (afterFrames v p fs).1 (afterFrames v p fs).2 fs' := List.foldl_append

/-- A frame without a key applies the edges of its good sample, and keeps the sample. -/
theorem afterFrame_sample (v : CounterValue) (p b : Byte) :
    afterFrame (v, p) ⟨none, some b⟩ = (counterUpdate .none (detectEdges b p) v, b) := by
  rw [afterFrame, frameInputs_eq]
  rfl

/-- A frame without a key and with a read error does nothing. -/
theorem afterFrame_readError (v : CounterValue) (p : Byte) : afterFrame (v, p) ⟨none, none⟩ = (v, p) := by
  rw [afterFrame, frameInputs_eq]
  exact congrArg (·, p) (counterUpdate_no_edge .none v)

/-- A sample like the one before it counts nothing. -/
theorem afterFrame_held (v : CounterValue) (b : Byte) : afterFrame (v, b) ⟨none, some b⟩ = (v, b) := by
  rw [afterFrame_sample, detectEdges_self, counterUpdate_no_edge]
  rfl

/-- A release counts nothing. -/
theorem afterFrame_release (v : CounterValue) (p : Byte) : afterFrame (v, p) ⟨none, some 0x00⟩ = (v, 0x00) := by
  rw [afterFrame_sample, detectEdges_of_released, counterUpdate_no_edge]
  rfl

/-- A sample after a released one counts every button it shows pressed. -/
theorem afterFrame_press (v : CounterValue) (b : Byte) :
    afterFrame (v, 0x00) ⟨none, some b⟩ = (counterUpdate .none b v, b) := by
  rw [afterFrame_sample, detectEdges_after_released]

/-- Settles O20: the row is the failed sample, and the frame function of a failed sample has no edges and keeps `prev`. -/
theorem readErrorInstruction : Obligations.ReadErrorInstruction := by
  refine ⟨fun s h hs hb => exec_readError_of_failed h hs hb, fun s t h hrst hs hb => ?edge, fun v => ?laterPress⟩
  case edge =>
    obtain ⟨hvalue, hprev⟩ := step_frame h hrst hs
    exact ⟨hprev.trans (framePrev_of_failed hb), hvalue.trans (frameValue_of_failed hb)⟩
  case laterPress =>
    rw [afterFrames_cons, afterFrame_readError, afterFrames_cons, afterFrame_press]
    rfl

/-! ### One edge for each press -/

/-- A button held, or released, over any number of samples after one like them counts nothing. -/
theorem afterFrames_held (v : CounterValue) (b : Byte) (n : Nat) :
    afterFrames v b (List.replicate n ⟨none, some b⟩) = (v, b) := by
  induction n with
  | zero => rfl
  | succ n ih => rw [List.replicate_succ, afterFrames_cons, afterFrame_held, ih]

/-- A press held over one sample or more counts once, at the first (41_edge_detector.md R84 (a)). -/
theorem afterFrames_press_held (v : CounterValue) (b : Byte) (n : Nat) :
    afterFrames v 0x00 (⟨none, some 0x00⟩ :: List.replicate (n + 1) ⟨none, some b⟩) = (counterUpdate .none b v, b) := by
  rw [afterFrames_cons, afterFrame_release, List.replicate_succ, afterFrames_cons, afterFrame_press, afterFrames_held]

theorem afterFrames_press_held_release (v : CounterValue) (b : Byte) (n : Nat) :
    afterFrames v 0x00 (⟨none, some 0x00⟩ :: (List.replicate (n + 1) ⟨none, some b⟩ ++ [⟨none, some 0x00⟩])) =
      (counterUpdate .none b v, 0x00) := by
  rw [← List.cons_append, afterFrames_append, afterFrames_press_held, afterFrames_cons, afterFrame_release]
  rfl

/-- Each press with a release after it counts (41_edge_detector.md R84 (c)). -/
theorem afterFrames_presses (b : Byte) (n : Nat) (v : CounterValue) :
    afterFrames v 0x00 (List.replicate n [⟨none, some b⟩, ⟨none, some 0x00⟩]).flatten =
      ((counterUpdate .none b)^[n] v, 0x00) := by
  induction n generalizing v with
  | zero => rfl
  | succ n ih =>
    rw [List.replicate_succ, List.flatten_cons, afterFrames_append, afterFrames_cons, afterFrame_press, afterFrames_cons,
      afterFrame_release, Function.iterate_succ_apply, ← ih]
    rfl

theorem counterUpdate_up (v : CounterValue) : counterUpdate .none 0x01 v = inc v := rfl

theorem counterUpdate_down (v : CounterValue) : counterUpdate .none 0x02 v = dec v := rfl

theorem inc_iterate_toNat (n : Nat) {v : CounterValue} (hv : v.toNat ≤ 9999) : (inc^[n] v).toNat = (v.toNat + n) % 10000 := by
  induction n with
  | zero => exact (Nat.mod_eq_of_lt (Nat.lt_succ_of_le hv)).symm
  | succ n ih => rw [Function.iterate_succ_apply', inc_toNat, ih]; omega

/-- `n` decrements stay in range and are undone by adding `n` modulo 10000. -/
theorem dec_iterate_toNat (n : Nat) {v : CounterValue} (hv : v.toNat ≤ 9999) :
    (dec^[n] v).toNat ≤ 9999 ∧ ((dec^[n] v).toNat + n) % 10000 = v.toNat := by
  induction n with
  | zero => exact ⟨hv, Nat.mod_eq_of_lt (Nat.lt_succ_of_le hv)⟩
  | succ n ih => rw [Function.iterate_succ_apply', dec_toNat]; omega

/-- The frame function of the FRAME line that has given ports in its key and sample. -/
theorem afterFrame_ports (i : Inputs) (v : CounterValue) (p : Byte) :
    afterFrame (v, p) ⟨if i.keyValid = true then some i.keyByte else none, if i.btnValid = true then some i.btn else none⟩ =
      (counterUpdate (keydec i.keyValid i.keyByte).1 (frameEdges i p) v, if i.btnValid = true then i.btn else p) := by
  rw [afterFrame, frameInputs_eq]
  unfold frameEdges
  cases i.keyValid <;> cases i.btnValid <;> rfl

/-- Settles O23: a held button is `afterFrames_held` after one press, repeated presses iterate `inc` or `dec`, and the clock edge is the
frame function of the ports' own line. -/
theorem heldButtonGivesOneEdge : Obligations.HeldButtonGivesOneEdge := by
  refine ⟨fun v n => ⟨afterFrames_press_held v 0x01 n, afterFrames_press_held_release v 0x01 n, afterFrames_press_held v 0x02 n,
      afterFrames_press_held_release v 0x02 n, afterFrames_held v 0x00 n⟩,
    fun v n hv => ?up, fun v n hv => ?down, State.resetRegisters_prev, ?firstSample, fun s t h hrst hs => ?edge⟩
  case up => rw [afterFrames_presses, funext counterUpdate_up, inc_iterate_toNat n hv]
  case down => rw [afterFrames_presses, funext counterUpdate_down]; exact dec_iterate_toNat n hv
  case firstSample => exact afterFrame_press 0 0x01
  case edge =>
    obtain ⟨hvalue, hprev⟩ := step_frame h hrst hs
    exact (congrArg₂ Prod.mk hvalue hprev).trans (afterFrame_ports s.inputs s.value s.prev).symm

end Sys2Proof.Machine
end

section
/-! PROOFS. The Counter State Machine (42_counter.md): its arithmetic (R93), the frame's counter update (R91, R95), its rows (R86 to R89), and
the edges that leave `value` alone. -/

namespace Sys2Proof.Machine

/-! ### Increment and decrement -/

theorem inc_eq_ite {v : CounterValue} (hv : v.toNat ≤ 9999) : inc v = if v = 9999 then 0 else v + 1 := by
  split_ifs with h
  · rw [h]; rfl
  · have hne : v.toNat ≠ 9999 := fun hn => h (BitVec.eq_of_toNat_eq hn)
    refine BitVec.eq_of_toNat_eq ?_
    rw [inc_toNat, BitVec.toNat_add, show (1 : CounterValue).toNat = 1 from rfl]
    omega

theorem dec_eq_ite {v : CounterValue} (hv : v.toNat ≤ 9999) : dec v = if v = 0 then 9999 else v - 1 := by
  split_ifs with h
  · rw [h]; rfl
  · have hne : v.toNat ≠ 0 := fun hn => h (BitVec.eq_of_toNat_eq hn)
    refine BitVec.eq_of_toNat_eq ?_
    rw [dec_toNat, BitVec.toNat_sub, show (1 : CounterValue).toNat = 1 from rfl]
    omega

theorem dec_inc {v : CounterValue} (hv : v.toNat ≤ 9999) : dec (inc v) = v := by
  refine BitVec.eq_of_toNat_eq ?_
  rw [dec_toNat, inc_toNat]
  omega

/-- The two commute on every 14-bit word, one above 9999 too: each order gives the value modulo 10000. -/
theorem inc_dec_comm (v : CounterValue) : inc (dec v) = dec (inc v) := by
  refine BitVec.eq_of_toNat_eq ?_
  rw [inc_toNat, dec_toNat, dec_toNat, inc_toNat]
  omega

theorem inc_dec {v : CounterValue} (hv : v.toNat ≤ 9999) : inc (dec v) = v := (inc_dec_comm v).trans (dec_inc hv)

/-- Settles O15: adding 1 and adding 9999 make 10000 in either order. -/
theorem incDecInverse : Obligations.IncDecInverse := fun _ hv => ⟨dec_inc hv, inc_dec hv⟩

/-! ### The two edges of a frame -/

theorem applyUp_of_edge {e : Byte} (h : e.getLsbD 0 = true) (v : CounterValue) : applyUp e v = inc v := if_pos h

theorem applyUp_of_no_edge {e : Byte} (h : e.getLsbD 0 = false) (v : CounterValue) : applyUp e v = v :=
  if_neg (ne_true_of_eq_false h)

theorem applyDown_of_edge {e : Byte} (h : e.getLsbD 1 = true) (v : CounterValue) : applyDown e v = dec v := if_pos h

theorem applyDown_of_no_edge {e : Byte} (h : e.getLsbD 1 = false) (v : CounterValue) : applyDown e v = v :=
  if_neg (ne_true_of_eq_false h)

/-- The order of the two buttons does not show: with at most one edge nothing is exchanged, and with both `inc` and `dec` commute. -/
theorem applyUp_applyDown_comm (e : Byte) (v : CounterValue) : applyUp e (applyDown e v) = applyDown e (applyUp e v) := by
  cases hup : e.getLsbD 0 with
  | false => rw [applyUp_of_no_edge hup, applyUp_of_no_edge hup]
  | true =>
    cases hdown : e.getLsbD 1 with
    | false => rw [applyDown_of_no_edge hdown, applyDown_of_no_edge hdown]
    | true =>
      rw [applyUp_of_edge hup, applyUp_of_edge hup, applyDown_of_edge hdown, applyDown_of_edge hdown, inc_dec_comm]

theorem counterUpdate_and_three (kc : Cmd) (e : Byte) (v : CounterValue) :
    counterUpdate kc e v = counterUpdate kc (e &&& 0x03) v :=
  counterUpdate_buttons (by rw [BitVec.and_assoc, BitVec.and_self]) kc v

/-! ### The masks of one frame -/

theorem counterUpdate_onlyUp (kc : Cmd) (v : CounterValue) : counterUpdate kc 0x01 v = inc (applyCmd kc v) := rfl

theorem counterUpdate_onlyDown (kc : Cmd) (v : CounterValue) : counterUpdate kc 0x02 v = dec (applyCmd kc v) := rfl

/-- The edges of both buttons cancel. -/
theorem counterUpdate_both (kc : Cmd) {v : CounterValue} (hv : v.toNat ≤ 9999) : counterUpdate kc 0x03 v = applyCmd kc v :=
  dec_inc (applyCmd_le kc hv)

theorem inc_zero : inc 0 = 1 := rfl

theorem dec_zero : dec 0 = 9999 := rfl

/-- Settles O17: each row is the lemma of its mask; where the key and the one button are opposite, `inc` and `dec` undo each other. -/
theorem netEffectOfOneFrame : Obligations.NetEffectOfOneFrame := fun v hv =>
  ⟨counterUpdate_no_edge .none v, counterUpdate_onlyUp .none v, counterUpdate_onlyDown .none v, counterUpdate_both .none hv,
    counterUpdate_no_edge .inc v, counterUpdate_onlyUp .inc v,
    (counterUpdate_onlyDown .inc v).trans (dec_inc hv), counterUpdate_both .inc hv,
    counterUpdate_no_edge .dec v, (counterUpdate_onlyUp .dec v).trans (inc_dec hv),
    counterUpdate_onlyDown .dec v, counterUpdate_both .dec hv,
    counterUpdate_no_edge .rst v, (counterUpdate_onlyUp .rst v).trans inc_zero,
    (counterUpdate_onlyDown .rst v).trans dec_zero, counterUpdate_both .rst hv,
    fun kc e => ⟨counterUpdate_and_three kc e v, applyUp_applyDown_comm e (applyCmd kc v)⟩⟩

/-! ### The command of a key -/

theorem decode_command (c : Cmd) : decode .command ((cmdCode c).zeroExtend 32) = .ok (cmdInstr c) := by
  cases c <;> rfl

theorem keydec_of_not_commandKey {b : Byte} (h : ¬ IsCommandKey b) : keydec true b = (.none, false) := by
  simp only [not_or] at h
  obtain ⟨hu, hd, hp, hq⟩ := h
  simp only [keydec, if_true, if_neg hu, if_neg hd, if_neg hp, if_neg hq]

/-- Each command but NONE has one key (30_encoding.md R60, R61): the one that `inputsOfCmd` offers. -/
theorem keydec_eq_iff {c : Cmd} (hc : c ≠ .none) (b : Byte) : (keydec true b).1 = c ↔ b = (inputsOfCmd c).keyByte := by
  by_cases hb : IsCommandKey b
  · cases c with
    | none => exact absurd rfl hc
    | inc | dec | rst => rcases hb with rfl | rfl | rfl | rfl <;> decide
  · rw [keydec_of_not_commandKey hb]
    refine iff_of_false hc.symm ?_
    rintro rfl
    cases c with
    | none => exact hc rfl
    | inc | dec | rst => exact hb (by decide)

/-! ### The counter rows -/

/-- The four command rows as one: in the INPUT cycle of a frame that does not quit, the row loads the value of its command. -/
theorem exec_cmdInstr_of_takesInput {s : State} (h : s.Ready) (hs : s.takesInput = true) (c : Cmd) :
    exec (cmdInstr c) s = .next (s.loadValue (applyCmd c s.value)) := by
  obtain ⟨hv, hi⟩ := h
  cases c with
  | none => exact (exec_cmdNone s).trans (rule_fires hv hi _ hs)
  | inc => exact (exec_cmdInc s).trans (rule_fires hv hi _ hs)
  | dec => exact (exec_cmdDec s).trans (rule_fires hv hi _ hs)
  | rst => exact (exec_cmdRst s).trans (rule_fires hv hi _ hs)

/-- Settles O11: the row is `exec_cmdInstr_of_takesInput` at INC, and its key is the one of `keydec_eq_iff`. -/
theorem cmdIncrement : Obligations.CmdIncrement :=
  ⟨fun _ h hs => exec_cmdInstr_of_takesInput h hs .inc, fun v hv => ⟨inc_toNat v, inc_eq_ite hv⟩, decode_command .inc,
    keydec_eq_iff nofun, fun _ v he => applyUp_of_edge he v, rfl, inc_zero, rfl⟩

/-- Settles O12: the row is `exec_cmdInstr_of_takesInput` at DEC, and its key is the one of `keydec_eq_iff`. -/
theorem cmdDecrement : Obligations.CmdDecrement :=
  ⟨fun _ h hs => exec_cmdInstr_of_takesInput h hs .dec, fun v hv => ⟨dec_toNat v, dec_eq_ite hv⟩, decode_command .dec,
    keydec_eq_iff nofun, fun _ v he => applyDown_of_edge he v, dec_zero, rfl, rfl, rfl⟩

/-- Settles O13: the row is `exec_cmdInstr_of_takesInput` at RST, and the two edge bits choose what follows the command. -/
theorem cmdResetValue : Obligations.CmdResetValue := by
  refine ⟨fun _ h hs => exec_cmdInstr_of_takesInput h hs .rst, decode_command .rst, keydec_eq_iff nofun, fun kc e v => ?edges,
    fun v => (counterUpdate_onlyUp .rst v).trans inc_zero, rfl, rfl⟩
  case edges =>
    unfold counterUpdate applyDown applyUp
    cases e.getLsbD 0 <;> cases e.getLsbD 1 <;> rfl

/-- Settles O14: the row is `exec_cmdInstr_of_takesInput` at NONE, whose value is the one that stands. -/
theorem cmdNoneKeepsValue : Obligations.CmdNoneKeepsValue :=
  ⟨fun _ h hs => exec_cmdInstr_of_takesInput h hs .none, decode_command .none, fun _ => rfl,
    fun _ hb => keydec_of_not_commandKey hb, fun _ v => ⟨fun he => applyUp_of_no_edge he v, fun he => applyDown_of_no_edge he v⟩⟩

/-! ### The edges that leave the value alone -/

theorem startUp_value (s : State) : s.startUp.value = s.value := by
  unfold State.startUp
  split <;> rfl

theorem writeDueDigit_value (s : State) : s.writeDueDigit.value = s.value := by
  unfold State.writeDueDigit
  split <;> rfl

theorem advanceDigit_value (s : State) : s.advanceDigit.value = s.value := by
  unfold State.advanceDigit
  split <;> rfl

/-- No cycle but the INPUT cycle of a frame that does not quit writes `value`, reset apart (42_counter.md R90). -/
theorem step_value_of_not_takesInput {s t : State} (h : step s = .next t) (hrst : s.inputs.rst = false)
    (hs : s.takesInput = false) : t.value = s.value := by
  cases edgeCase_of_step h with
  | reset hr => exact absurd (hrst.symm.trans hr) nofun
  | init => exact startUp_value s.beginEdge
  | halted => rfl
  | quit => rw [takeKey_quitFrame]; rfl
  | input _ hin hq => exact absurd (hs.symm.trans ((takesInput_iff s).2 ⟨hin, hq⟩)) nofun
  | advance => exact (advanceDigit_value _).trans (writeDueDigit_value s.beginEdge)
  | dwell => exact writeDueDigit_value s.beginEdge

/-- Settles O16: the row loads `counterUpdate`, whose three steps are those of the rule, and by the cases of an edge no other cycle loads
`value`. -/
theorem counterUpdateInstruction : Obligations.CounterUpdateInstruction := by
  refine ⟨fun s kc ⟨hv, hi⟩ hs => ?row, fun s t h hrst hs => step_value_of_not_takesInput h hrst hs⟩
  case row =>
    rw [exec_counterUpdate, rule_fires hv hi _ hs]
    rfl

end Sys2Proof.Machine
end

section
/-! PROOFS. The Multiplex Driver (43_multiplexer.md): its three rows (R102 to R104), the words of a frame (R108), where the sequencer stands in
each cycle of the DIGIT phase (R97, R101), and how long each word is shown (R105). -/

namespace Sys2Proof.Machine

/-! ### The words of a frame -/

/-- Settles O51: the list is written out position by position, and the five rows of the table are evaluated. -/
theorem frameWordsTable : Obligations.FrameWordsTable := ⟨fun _ _ => rfl, rfl, rfl, rfl, rfl, rfl⟩

/-! ### The three rows of the DIGIT phase -/

theorem exec_digitWrite_of_first {s : State} (h : s.Ready) (hd : s.inDigit = true) (h0 : s.cnt = 0) :
    exec .digitWrite s = .next s.writeDigit := by
  obtain ⟨hv, hi⟩ := h
  rw [exec_digitWrite, rule_fires hv hi _ (by simp [hd, h0])]

theorem exec_dwellStep_of_lt {s : State} (h : s.Ready) (hd : s.inDigit = true) (hlt : s.cnt < s.cfg.dwellCycles - 1) :
    exec .dwellStep s = .next s.stepDwell := by
  obtain ⟨hv, hi⟩ := h
  rw [exec_dwellStep, rule_fires hv hi _ (by simp [hd, hlt])]

theorem exec_digitAdvance_of_last {s : State} (h : s.Ready) (hd : s.inDigit = true) (hlast : s.cnt = s.cfg.dwellCycles - 1) :
    exec .digitAdvance s = .next s.advanceDigit := by
  obtain ⟨hv, hi⟩ := h
  rw [exec_digitAdvance, rule_fires hv hi _ (by simp [hd, hlast])]

theorem advanceDigit_of_ones {s : State} (hk : s.k = 3) : s.advanceDigit = { s with cnt := 0, k := 0, phase := .input } :=
  if_pos hk

theorem advanceDigit_of_not_ones {s : State} (hk : s.k ≠ 3) : s.advanceDigit = { s with cnt := 0, k := s.k + 1 } := if_neg hk

/-- With `DWELL_CYCLES = 1` the first cycle of a dwell is its last. -/
theorem cnt_eq_zero_of_single_dwell {s : State} (hi : s.Inv) (hone : s.cfg.dwellCycles = 1) : s.cnt = 0 := by
  obtain ⟨-, hcnt, -⟩ := hi
  rwa [hone, Nat.lt_one_iff] at hcnt

theorem fetch_of_single_dwell {s : State} (h : s.Ready) (hd : s.inDigit = true) (hrst : s.inputs.rst = false)
    (hone : s.cfg.dwellCycles = 1) : s.fetch = [.digitWrite, .digitAdvance] := by
  obtain ⟨-, hi⟩ := h
  have h0 := cnt_eq_zero_of_single_dwell hi hone
  rw [fetch_digit hrst hd, if_pos h0, if_pos (by rw [h0, hone])]
  rfl

/-- Settles O35: the row is `State.writeDigit`, and with one cycle to a dwell every DIGIT cycle is a first one. -/
theorem digitWriteInstruction : Obligations.DigitWriteInstruction := by
  refine ⟨fun s h hd h0 => exec_digitWrite_of_first h hd h0, rfl, fun s h hd hone hrst => ?singleDwell, rfl⟩
  case singleDwell =>
    rw [fetch_of_single_dwell h hd hrst hone]
    exact List.mem_cons_self

/-- Settles O36: the row is `State.stepDwell`, and a cycle that is not the last of its dwell does not advance. -/
theorem dwellStepInstruction : Obligations.DwellStepInstruction := by
  refine ⟨fun s h hd hlt => exec_dwellStep_of_lt h hd hlt, fun s _ hd hrst hlt => ?fetched⟩
  case fetched =>
    rw [fetch_digit hrst hd, if_neg hlt.ne]
    split <;> rfl

/-- Settles O37: the row is `State.advanceDigit`, which goes on to the next digit or to the next frame. -/
theorem digitAdvanceInstruction : Obligations.DigitAdvanceInstruction := by
  refine ⟨fun s h hd hlast => ⟨fun hk => ?nextDigit, fun hk => ?nextFrame⟩,
    fun s h hd hrst hone => fetch_of_single_dwell h hd hrst hone⟩
  case nextDigit => rw [exec_digitAdvance_of_last h hd hlast, advanceDigit_of_not_ones (BitVec.ne_of_lt hk)]
  case nextFrame => rw [exec_digitAdvance_of_last h hd hlast, advanceDigit_of_ones hk]

/-! ### What every edge leaves: the configuration, and the inputs one edge on -/

/-- Before an edge ends it has not touched the configuration or the inputs to come. -/
theorem EdgeCase.keeps_ports {s t : State} (h : EdgeCase s t) :
    ∃ u : State, t = u.endEdge ∧ u.cfg = s.cfg ∧ u.stim = s.stim ∧ u.cycle = s.cycle := by
  have due : s.beginEdge.writeDueDigit.cfg = s.cfg ∧ s.beginEdge.writeDueDigit.stim = s.stim ∧
      s.beginEdge.writeDueDigit.cycle = s.cycle := by
    unfold State.writeDueDigit
    split <;> exact ⟨rfl, rfl, rfl⟩
  cases h with
  | reset | halted => exact ⟨_, rfl, rfl, rfl, rfl⟩
  | init =>
    refine ⟨_, rfl, ?_⟩
    unfold State.startUp
    split <;> exact ⟨rfl, rfl, rfl⟩
  | quit =>
    refine ⟨_, rfl, ?_⟩
    rw [takeKey_quitFrame]
    exact ⟨rfl, rfl, rfl⟩
  | input _ _ hq =>
    refine ⟨_, rfl, ?_⟩
    rw [takeKey_inputCycle s.beginEdge hq]
    exact ⟨rfl, rfl, rfl⟩
  | advance =>
    refine ⟨_, rfl, ?_⟩
    unfold State.advanceDigit
    split <;> exact due
  | dwell => exact ⟨_, rfl, due⟩

theorem step_cfg {s t : State} (h : step s = .next t) : t.cfg = s.cfg := by
  obtain ⟨u, rfl, hcfg, -, -⟩ := (edgeCase_of_step h).keeps_ports
  exact hcfg

theorem step_inputAt {s t : State} (h : step s = .next t) (j : Nat) : t.inputAt j = s.inputAt (j + 1) := by
  obtain ⟨u, rfl, -, hstim, hcycle⟩ := (edgeCase_of_step h).keeps_ports
  rw [endEdge_inputAt, State.inputAt, State.inputAt, hstim, hcycle]

theorem step_ready {s t : State} (hs : s.Ready) (h : step s = .next t) : t.Ready := by
  obtain ⟨hv, hi⟩ := hs
  exact ⟨(step_cfg h).symm ▸ hv, step_inv hi h⟩

/-- A state that an edge has a meaning for goes on to a next state. -/
theorem exists_step {s : State} (hc : s.CanStep) : ∃ t, step s = .next t := by
  obtain ⟨-, -, hcan⟩ := id hc
  cases hrst : s.inputs.rst with
  | true => exact ⟨_, step_of_edgeCase hc (.reset hrst)⟩
  | false =>
    obtain ⟨-, hcnt, -⟩ : s.Inv := hcan.resolve_left (by simp [hrst])
    rcases cycle_cases s with hrun | hhalt | hin | hd
    · exact ⟨_, step_of_edgeCase hc (.init hrst hrun)⟩
    · exact ⟨_, step_of_edgeCase hc (.halted hrst hhalt)⟩
    · cases hq : s.key.2 with
      | true => exact ⟨_, step_of_edgeCase hc (.quit hrst hin hq)⟩
      | false => exact ⟨_, step_of_edgeCase hc (.input hrst hin hq)⟩
    · rcases (Nat.le_sub_one_of_lt hcnt).eq_or_lt with hlast | hlt
      · exact ⟨_, step_of_edgeCase hc (.advance hrst hd hlast)⟩
      · exact ⟨_, step_of_edgeCase hc (.dwell hrst hd hlt)⟩

/-! ### Runs, one edge at a time -/

theorem runFor_snoc {n : Nat} {s u t : State} (hu : runFor n s = .next u) (ht : step u = .next t) :
    runFor (n + 1) s = .next t := by
  rw [runFor_add, hu, andThen_of_next, runFor_succ, ht]
  rfl

theorem runFor_inputAt {n : Nat} {s u : State} (h : runFor n s = .next u) (j : Nat) : u.inputAt j = s.inputAt (j + n) := by
  induction n generalizing s with
  | zero => cases h; rfl
  | succ n ih =>
    obtain ⟨t, ht, hu⟩ := andThen_next h
    rw [ih hu, step_inputAt ht, Nat.add_assoc]

/-- The edge after `n` others is no reset edge. -/
theorem runFor_rst {n m : Nat} {s u : State} (h : runFor n s = .next u) (hrst : s.NoReset m) (hn : n < m) :
    u.inputs.rst = false := by
  have hin : u.inputs = s.inputAt (0 + n) := runFor_inputAt h 0
  rw [hin, Nat.zero_add]
  exact hrst n hn

/-- Over the edge after `n` others a source that does its duty holds its offer. -/
theorem offerHeld_of_runFor {n : Nat} {s u t : State} (hu : runFor n s = .next u) (ht : step u = .next t)
    (hold : s.HoldsOffers n (1 + n)) : t.offerHeld = true := by
  have hold' : u.HoldsOffers 0 1 := holdsOffers_shift (runFor_inputAt hu) (by rwa [Nat.zero_add])
  exact offerHeld_of_holdsOffers ht (step_inputAt ht 0) hold'

/-! ### One edge of the DIGIT phase -/

theorem takesInput_eq_false_of_inDigit {s : State} (hd : s.inDigit = true) : s.takesInput = false := by
  obtain ⟨-, hphase⟩ := (inDigit_iff s).1 hd
  simp [State.takesInput, State.inInput, hphase]

theorem sendsWord_of_inDigit {s : State} (hd : s.inDigit = true) : s.SendsWord ↔ s.cnt = 0 := by
  have hphase := (inDigit_iff s).1 hd
  simp [State.SendsWord, inInput_iff, hd, hphase]

/-- The edge of a DIGIT cycle: the last of a dwell advances, any other counts on. -/
theorem step_of_inDigit {s t : State} (h : step s = .next t) (hrst : s.inputs.rst = false) (hd : s.inDigit = true) :
    (s.cnt = s.cfg.dwellCycles - 1 ∧ t = s.beginEdge.writeDueDigit.advanceDigit.endEdge) ∨
    (s.cnt < s.cfg.dwellCycles - 1 ∧ t = s.beginEdge.writeDueDigit.stepDwell.endEdge) := by
  have hphase := (inDigit_iff s).1 hd
  cases edgeCase_of_step h with
  | reset hr => exact absurd (hrst.symm.trans hr) nofun
  | init _ hrun => exact absurd (hphase.1.symm.trans hrun) nofun
  | halted _ hhalt => simp [isHalted_iff, hphase] at hhalt
  | quit _ hin | input _ hin => simp [inInput_iff, hphase] at hin
  | advance _ _ hlast => exact Or.inl ⟨hlast, rfl⟩
  | dwell _ _ hlt => exact Or.inr ⟨hlt, rfl⟩

/-- Where the sequencer of a DIGIT cycle goes (43_multiplexer.md R103, R104). `sequencerMove_of_step` ties it to `step`. -/
inductive SequencerMove (s t : State) : Prop where
  | dwell (hlt : s.cnt + 1 < s.cfg.dwellCycles) (hd : t.inDigit = true) (hk : t.k = s.k) (hcnt : t.cnt = s.cnt + 1)
  | nextDigit (hlast : s.cnt + 1 = s.cfg.dwellCycles) (hk3 : s.k ≠ 3) (hd : t.inDigit = true) (hk : t.k = s.k + 1)
      (hcnt : t.cnt = 0)
  | nextFrame (hlast : s.cnt + 1 = s.cfg.dwellCycles) (hk3 : s.k = 3) (hin : t.inInput = true)

theorem writeDueDigit_k (s : State) : s.writeDueDigit.k = s.k := by
  unfold State.writeDueDigit
  split <;> rfl

theorem sequencerMove_of_step {s t : State} (hs : s.Ready) (h : step s = .next t) (hrst : s.inputs.rst = false)
    (hd : s.inDigit = true) : SequencerMove s t := by
  obtain ⟨-, -, hcnt, -⟩ := hs
  obtain ⟨hd', hcnt', -⟩ := State.writeDueDigit_sequencer s.beginEdge
  have hdue : s.beginEdge.writeDueDigit.inDigit = true := hd'.trans hd
  have hk' : s.beginEdge.writeDueDigit.k = s.k := writeDueDigit_k s.beginEdge
  rcases step_of_inDigit h hrst hd with ⟨hlast, rfl⟩ | ⟨hlt, rfl⟩
  · by_cases hk : s.k = 3
    · rw [advanceDigit_of_ones (hk'.trans hk)]
      exact .nextFrame (by omega) hk ((inInput_iff _).2 ⟨((inDigit_iff _).1 hdue).1, rfl⟩)
    · rw [advanceDigit_of_not_ones (hk' ▸ hk)]
      exact .nextDigit (by omega) hk hdue (congrArg (· + 1) hk') rfl
  · exact .dwell (by omega) hdue hk' (congrArg (· + 1) hcnt')

/-- After the edge of a DIGIT cycle the outputs show the digit's word if it was due, with the strobe, and else what they showed. -/
theorem step_outputs_of_inDigit {s t : State} (h : step s = .next t) (hrst : s.inputs.rst = false) (hd : s.inDigit = true) :
    (t.we = true ↔ s.cnt = 0) ∧ t.disp = if s.cnt = 0 then digitWord s.cfg s.value s.k else s.disp := by
  obtain ⟨hstrobe, -, hidle⟩ := step_strobe h
  have hwe : t.we = true ↔ s.cnt = 0 := by rw [hstrobe, sendsWord_of_inDigit hd, and_iff_right hrst]
  refine ⟨hwe, ?_⟩
  split_ifs with h0
  · have hdue : s.beginEdge.writeDueDigit.disp = digitWord s.cfg s.value s.k := by
      rw [State.writeDueDigit_of_first (s := s.beginEdge) h0, writeDigit_eq]
      rfl
    rcases step_of_inDigit h hrst hd with ⟨-, rfl⟩ | ⟨-, rfl⟩
    · obtain ⟨-, hdisp, -⟩ := advanceDigit_outputs s.beginEdge.writeDueDigit
      exact hdisp.trans hdue
    · exact hdue
  · obtain ⟨-, hkept⟩ := hidle (Bool.eq_false_iff.2 (hwe.not.2 h0))
    exact hkept hrst

/-! ### Cycle `j` of the DIGIT phase -/

/-- The state `u` stands in cycle `j` of the DIGIT phase that shows the value of the frame begun in `s`: `j` counts the whole dwells of
the digits before and the cycles of this one, and past the first cycle of a dwell its word is on the outputs.
`exists_digitCycle` ties it to the runs from `s`. -/
structure DigitCycle (s : State) (j : Nat) (u : State) : Prop where
  ready : u.Ready
  cfg : u.cfg = s.cfg
  inDigit : u.inDigit = true
  position : u.k.toNat * s.cfg.dwellCycles + u.cnt = j
  value : u.value = s.frameValue
  shown : u.cnt ≠ 0 → u.disp = digitWord s.cfg s.frameValue u.k

/-- The INPUT cycle of a frame that does not quit leads to cycle 0, and leaves the outputs but for the strobe. -/
theorem digitCycle_zero {s t : State} (hs : s.Ready) (hin : s.takesInput = true) (hrst : s.inputs.rst = false)
    (h : step s = .next t) : DigitCycle s 0 t ∧ t.disp = s.disp ∧ t.we = false := by
  obtain ⟨hinput, hq⟩ := (takesInput_iff s).1 hin
  obtain ⟨hrun, -⟩ := (inInput_iff s).1 hinput
  obtain ⟨hvalue, -⟩ := step_frame h hrst hin
  have ht : t = (s.beginEdge.afterInput s.key.1
      (if s.inputs.keyValid = true then [.keyTaken s.inputs.keyByte] else [])).endEdge :=
    (step_of_takesInput h hrst hin).trans (congrArg State.endEdge (takeKey_inputCycle s.beginEdge hq))
  have hcycle : t.inDigit = true ∧ t.k = 0 ∧ t.cnt = 0 ∧ t.disp = s.disp ∧ t.we = false := by
    rw [ht]
    exact ⟨(inDigit_iff _).2 ⟨hrun, rfl⟩, rfl, rfl, rfl, rfl⟩
  obtain ⟨hd, hk, hcnt, hdisp, hwe⟩ := hcycle
  refine ⟨⟨step_ready hs h, step_cfg h, hd, ?position, hvalue, fun h0 => absurd hcnt h0⟩, hdisp, hwe⟩
  case position =>
    rw [hk, hcnt]
    simp

namespace DigitCycle

variable {s u t : State} {j : Nat}

theorem cnt_lt (hu : DigitCycle s j u) : u.cnt < s.cfg.dwellCycles := by
  obtain ⟨-, -, hcnt, -⟩ := hu.ready
  exact hu.cfg ▸ hcnt

/-- Digit and dwell count are the quotient and the remainder of the cycle's number (43_multiplexer.md R97). -/
theorem div_mod (hu : DigitCycle s j u) : j / s.cfg.dwellCycles = u.k.toNat ∧ j % s.cfg.dwellCycles = u.cnt := by
  have hcnt := hu.cnt_lt
  refine (Nat.div_mod_unique (Nat.zero_lt_of_lt hcnt)).2 ⟨?_, hcnt⟩
  rw [Nat.add_comm, Nat.mul_comm]
  exact hu.position

theorem k_eq (hu : DigitCycle s j u) : u.k = BitVec.ofNat 2 (j / s.cfg.dwellCycles) := by
  obtain ⟨hdiv, -⟩ := hu.div_mod
  rw [hdiv, BitVec.ofNat_toNat, BitVec.setWidth_eq]

theorem cnt_eq (hu : DigitCycle s j u) : u.cnt = j % s.cfg.dwellCycles := by
  obtain ⟨-, hmod⟩ := hu.div_mod
  exact hmod.symm

/-- The edge that ends cycle `j` shows the word of its digit, strobed in the first cycle of the dwell. -/
theorem step_outputs (hu : DigitCycle s j u) (hrst : u.inputs.rst = false) (h : step u = .next t) :
    t.disp = digitWord s.cfg s.frameValue (BitVec.ofNat 2 (j / s.cfg.dwellCycles)) ∧
      (t.we = true ↔ j % s.cfg.dwellCycles = 0) := by
  obtain ⟨hwe, hdisp⟩ := step_outputs_of_inDigit h hrst hu.inDigit
  refine ⟨?_, hu.cnt_eq ▸ hwe⟩
  rw [hdisp, ← hu.k_eq, hu.cfg, hu.value]
  split_ifs with h0
  · rfl
  · exact hu.shown h0

theorem step_value (hu : DigitCycle s j u) (hrst : u.inputs.rst = false) (h : step u = .next t) : t.value = s.frameValue :=
  (step_value_of_not_takesInput h hrst (takesInput_eq_false_of_inDigit hu.inDigit)).trans hu.value

/-- After cycle `j` comes cycle `j + 1`, or the next INPUT cycle where all four dwells are over. -/
theorem next_cycle (hu : DigitCycle s j u) (hrst : u.inputs.rst = false) (h : step u = .next t) :
    DigitCycle s (j + 1) t ∨ (j + 1 = 4 * s.cfg.dwellCycles ∧ t.inInput = true) := by
  have hready := step_ready hu.ready h
  have hcfg := (step_cfg h).trans hu.cfg
  have hvalue := hu.step_value hrst h
  obtain ⟨hshown, -⟩ := hu.step_outputs hrst h
  rw [← hu.k_eq] at hshown
  have hposition := hu.position
  cases sequencerMove_of_step hu.ready h hrst hu.inDigit with
  | dwell _ hd hk hcnt =>
    refine .inl ⟨hready, hcfg, hd, ?_, hvalue, fun _ => hk ▸ hshown⟩
    rw [hk, hcnt, ← Nat.add_assoc, hposition]
  | nextDigit hlast hk3 hd hk hcnt =>
    refine .inl ⟨hready, hcfg, hd, ?_, hvalue, fun h0 => absurd hcnt h0⟩
    have hsucc : t.k.toNat = u.k.toNat + 1 := by rw [hk]; bv_omega
    rw [hu.cfg] at hlast
    rw [hsucc, hcnt, Nat.add_zero, Nat.succ_mul, ← hlast, ← hposition, ← hlast, Nat.add_assoc]
  | nextFrame hlast hk3 hin =>
    refine .inr ⟨?_, hin⟩
    have hthree : u.k.toNat = 3 := by rw [hk3]; rfl
    rw [hu.cfg] at hlast
    rw [hthree] at hposition
    omega

end DigitCycle

/-! ### The run through a frame that does not quit -/

section
variable {s : State} (hs : s.Ready) (hin : s.takesInput = true) (ho : s.offerHeld = true)
include hs hin ho

/-- One edge after the INPUT cycle and `j` more the DIGIT phase is in its cycle `j`. -/
theorem exists_digitCycle {j : Nat} (hj : j < 4 * s.cfg.dwellCycles) (hrst : s.NoReset (1 + j)) (hold : s.HoldsOffers 1 (1 + j)) :
    ∃ u, runFor (1 + j) s = .next u ∧ DigitCycle s j u ∧ u.offerHeld = true := by
  induction j with
  | zero =>
    have hrst0 : s.inputs.rst = false := hrst 0 Nat.one_pos
    obtain ⟨hinput, -⟩ := (takesInput_iff s).1 hin
    obtain ⟨t, ht⟩ := exists_step ⟨hs.1, ho, .inr hs.2⟩
    obtain ⟨hcycle, -⟩ := digitCycle_zero hs hin hrst0 ht
    exact ⟨t, runFor_snoc (runFor_zero s) ht, hcycle, offerHeld_of_keyRdy ht hinput⟩
  | succ j ih =>
    obtain ⟨u, hrun, hu, hou⟩ := ih (by omega) (fun i hi => hrst i (by omega)) (holdsOffers_mono hold le_rfl (by omega))
    obtain ⟨t, ht⟩ := exists_step ⟨hu.ready.1, hou, .inr hu.ready.2⟩
    have hnext := hu.next_cycle (runFor_rst hrun hrst (by omega)) ht
    exact ⟨t, runFor_snoc hrun ht, hnext.resolve_right fun ⟨hlast, _⟩ => by omega,
      offerHeld_of_runFor hrun ht (holdsOffers_mono hold (by omega) (by omega))⟩

/-- The edge that ends cycle `j` of the DIGIT phase. -/
theorem exists_digitEdge {j : Nat} (hj : j < 4 * s.cfg.dwellCycles) (hrst : s.NoReset (1 + (j + 1)))
    (hold : s.HoldsOffers 1 (1 + j)) :
    ∃ u t, runFor (1 + j) s = .next u ∧ DigitCycle s j u ∧ u.inputs.rst = false ∧ step u = .next t ∧
      runFor (1 + (j + 1)) s = .next t := by
  obtain ⟨u, hrun, hu, hou⟩ := exists_digitCycle hs hin ho hj (fun i hi => hrst i (by omega)) hold
  obtain ⟨t, ht⟩ := exists_step ⟨hu.ready.1, hou, .inr hu.ready.2⟩
  exact ⟨u, t, hrun, hu, runFor_rst hrun hrst (by omega), ht, runFor_snoc hrun ht⟩

/-- After the `4 × DWELL_CYCLES` cycles of the DIGIT phase comes the next INPUT cycle, with the ones digit still shown. -/
theorem exists_nextInputCycle (hrst : s.NoReset (1 + 4 * s.cfg.dwellCycles)) (hold : s.HoldsOffers 1 (4 * s.cfg.dwellCycles)) :
    ∃ t, runFor (1 + 4 * s.cfg.dwellCycles) s = .next t ∧ t.Ready ∧ t.cfg = s.cfg ∧ t.inInput = true ∧
      t.value = s.frameValue ∧ t.disp = digitWord s.cfg s.frameValue 3 ∧
      (s.HoldsOffers 1 (1 + 4 * s.cfg.dwellCycles) → t.offerHeld = true) := by
  have hpos : 1 ≤ s.cfg.dwellCycles := hs.1.1
  obtain ⟨j, hlast⟩ : ∃ j, 4 * s.cfg.dwellCycles = j + 1 := Nat.exists_eq_succ_of_ne_zero (by omega)
  rw [hlast] at hrst hold ⊢
  obtain ⟨u, t, hrun, hu, hrstu, ht, hrun'⟩ := exists_digitEdge hs hin ho (by omega) hrst (by rwa [Nat.add_comm])
  have hover : ¬ DigitCycle s (j + 1) t := fun hcycle => by
    obtain ⟨hdiv, -⟩ := hcycle.div_mod
    rw [← hlast, Nat.mul_div_cancel _ hpos] at hdiv
    omega
  obtain ⟨-, hinput⟩ := (hu.next_cycle hrstu ht).resolve_left hover
  have hones : j / s.cfg.dwellCycles = 3 := Nat.div_eq_of_lt_le (by omega) (by omega)
  obtain ⟨hdisp, -⟩ := hu.step_outputs hrstu ht
  rw [hones] at hdisp
  exact ⟨t, hrun', step_ready hu.ready ht, (step_cfg ht).trans hu.cfg, hinput, hu.step_value hrstu ht, hdisp,
    fun hold' => offerHeld_of_runFor hrun ht (holdsOffers_mono hold' (by omega) (by omega))⟩

end

/-- Settles O53: the position of each cycle is that of `DigitCycle`, and the last cycle leads to the next INPUT cycle. -/
theorem digitPhasePositions : Obligations.DigitPhasePositions := by
  intro s hs hin hrst ho hold
  constructor
  · intro j hj
    obtain ⟨u, hrun, hu, -⟩ := exists_digitCycle hs hin ho hj (fun i hi => hrst i (by omega)) (holdsOffers_mono hold le_rfl (by omega))
    exact ⟨u, hrun, hu.inDigit, hu.k_eq, hu.cnt_eq, hu.value⟩
  · obtain ⟨u, hrun, -, -, hinput, hvalue, -⟩ := exists_nextInputCycle hs hin ho hrst hold
    exact ⟨u, hrun, hinput, hvalue⟩

/-! ### The ones digit through the next INPUT cycle -/

/-- An INPUT cycle that quits blanks the display, with a transfer (44_frame_control.md R114). -/
theorem step_blanks_of_quit {s t : State} (h : step s = .next t) (hrst : s.inputs.rst = false) (hin : s.inInput = true)
    (hq : s.key.2 = true) : t.disp = 0x0000 ∧ t.we = true := by
  obtain ⟨hv, ho, hcan, -⟩ := edge_next h
  have hstep := step_of_edgeCase ⟨hv, ho, hcan⟩ (.quit hrst hin hq)
  rw [takeKey_quitFrame] at hstep
  cases h.symm.trans hstep
  exact ⟨rfl, rfl⟩

/-- Settles O55: `DigitCycle.step_outputs` at each cycle; the next INPUT cycle blanks the display, or leaves it and is followed by cycle 0
of the next DIGIT phase, whose edge writes. -/
theorem wordsAreHeldForTheirDwell : Obligations.WordsAreHeldForTheirDwell := by
  intro s hs hin ho
  constructor
  · intro hrst hold j hj
    obtain ⟨u, t, -, hu, hrstu, ht, hrun⟩ :=
      exists_digitEdge hs hin ho hj (fun i hi => hrst i (by omega)) (holdsOffers_mono hold le_rfl (by omega))
    exact ⟨t, hrun, hu.step_outputs hrstu ht⟩
  · intro hrst hold
    obtain ⟨u, hrun, hu, hcfg, hinput, -, hdisp, hou⟩ :=
      exists_nextInputCycle hs hin ho (fun i hi => hrst i (by omega)) (holdsOffers_mono hold le_rfl (by omega))
    have hrstu := runFor_rst hrun hrst (by omega)
    obtain ⟨v, hv⟩ := exists_step ⟨hu.1, hou hold, .inr hu.2⟩
    refine ⟨u, v, hrun, hinput, hdisp, hv, step_blanks_of_quit hv hrstu hinput, fun hq => ?goesOn⟩
    case goesOn =>
      obtain ⟨hcycle, hkept, hwe⟩ := digitCycle_zero hu ((takesInput_iff u).2 ⟨hinput, hq⟩) hrstu hv
      refine ⟨hkept.trans hdisp, hwe, fun hrstv => ?_⟩
      obtain ⟨w, hw⟩ := exists_step ⟨hcycle.ready.1, offerHeld_of_keyRdy hv hinput, .inr hcycle.ready.2⟩
      obtain ⟨hnew, hstrobe⟩ := hcycle.step_outputs hrstv hw
      rw [Nat.zero_div, hcfg] at hnew
      exact ⟨w, hw, hnew, hstrobe.2 (Nat.zero_mod _)⟩

end Sys2Proof.Machine
end

section
/-! PROOFS. The frame control's rows (44_frame_control.md): the key decode (R112), the INPUT cycle (R113) with each key (R114 to R119), the
two edge commands (R120, R121), and the INPUT cycle as its parts in the order of the data path (R125). -/

namespace Sys2Proof.Machine

/-! ### Key decode -/

theorem exec_keyDecode_of_inInput {s : State} (h : s.Ready) (hin : s.inInput = true) :
    exec (.keyDecode s.inputs.keyByte) s = .next s.takeKey := by
  obtain ⟨hv, hi⟩ := h
  rw [exec_keyDecode, rule_fires hv hi _ (by simp [hin])]

/-- Settles O24: the row is `State.takeKey`, and the bytes without a command are those of `keydec_of_not_commandKey`. -/
theorem keyDecodeInstruction : Obligations.KeyDecodeInstruction := by
  refine ⟨fun s h hin => ?row, fun _ => rfl, rfl, rfl, rfl, rfl, fun _ hb => keydec_of_not_commandKey hb⟩
  case row =>
    rw [exec_keyDecode_of_inInput h hin, takeKey_eq]
    split
    · rfl
    · rw [List.append_nil]
      rfl

/-! ### The INPUT cycle -/

theorem exec_inputCycle_of_takesInput {s : State} (h : s.Ready) (hs : s.takesInput = true) :
    exec .inputCycle s = .next s.inputCycle := by
  obtain ⟨hv, hi⟩ := h
  rw [exec_inputCycle, rule_fires hv hi _ hs]

/-- Settles O34: the row is `State.inputCycle`, whose registers `inputCycle_eq` gives. -/
theorem inputCycleInstruction : Obligations.InputCycleInstruction := by
  intro s h hin hq
  rw [exec_inputCycle_of_takesInput h ((takesInput_iff s).2 ⟨hin, hq⟩), inputCycle_eq]
  rfl

/-! ### The INPUT cycle with each key -/

theorem keyRow_of_offer {s : State} (hk : s.inputs.keyValid = true) : s.keyRow = decodeKey true s.inputs.keyByte := by
  rw [State.keyRow, hk]

theorem key_of_offer {s : State} (hk : s.inputs.keyValid = true) : s.key = keydec true s.inputs.keyByte := by
  rw [State.key, hk]

/-- The row of an offered byte that does not quit runs INPUT_CYCLE with the byte's command (44_frame_control.md R113). -/
theorem exec_keyRow_of_offer {s : State} (h : s.Ready) (hin : s.inInput = true) (hk : s.inputs.keyValid = true)
    {b : Byte} (hb : s.inputs.keyByte = b) {kc : Cmd} (hkc : keydec true b = (kc, false)) :
    exec (decodeKey true b) s = .next (s.afterInput kc [.keyTaken b]) := by
  have hkey : s.key = (kc, false) := by rw [key_of_offer hk, hb, hkc]
  have hq : s.key.2 = false := by rw [hkey]
  have hrow := exec_keyRow h.1 h.2 hin
  rwa [keyRow_of_offer hk, if_neg (ne_true_of_eq_false hq), takeKey_inputCycle s hq, if_pos hk, hkey, hb] at hrow

/-- A frame with a key and all buttons released applies the key's command alone. -/
theorem afterFrame_key (v : CounterValue) (b p : Byte) :
    afterFrame (v, p) ⟨some b, some 0x00⟩ = (applyCmd (keydec true b).1 v, 0x00) := by
  rw [afterFrame, frameInputs_eq]
  exact congrArg (·, 0x00) ((congrArg (counterUpdate _ · v) (detectEdges_of_released p)).trans (counterUpdate_no_edge _ v))

/-- `n` such frames apply the command `n` times. -/
theorem afterFrames_key (b : Byte) (n : Nat) (v : CounterValue) :
    afterFrames v 0x00 (List.replicate n ⟨some b, some 0x00⟩) = ((applyCmd (keydec true b).1)^[n] v, 0x00) := by
  induction n generalizing v with
  | zero => rfl
  | succ n ih => rw [List.replicate_succ, afterFrames_cons, afterFrame_key, ih, Function.iterate_succ_apply]

/-- Settles O25: the row is `exec_keyRow_of_offer` at 'u', and the UP edge adds its own increment to that of the key. -/
theorem keyUInstruction : Obligations.KeyUInstruction :=
  ⟨fun _ h hin hk hb => exec_keyRow_of_offer h hin hk hb rfl, counterUpdate_no_edge .inc 9999, counterUpdate_onlyUp .inc, rfl, rfl,
    afterFrames_key 0x75 5 0⟩

/-- Settles O26: the row is `exec_keyRow_of_offer` at 'd', and the DOWN edge adds its own decrement to that of the key. -/
theorem keyDInstruction : Obligations.KeyDInstruction :=
  ⟨fun _ h hin hk hb => exec_keyRow_of_offer h hin hk hb rfl, (counterUpdate_no_edge .dec 0).trans dec_zero,
    counterUpdate_onlyDown .dec, rfl, rfl, afterFrames_key 0x64 1 0⟩

/-- Settles O27: the row is `exec_keyRow_of_offer` at 'p', and the edges act on the 0 that the key leaves. -/
theorem keyPInstruction : Obligations.KeyPInstruction :=
  ⟨fun _ h hin hk hb => exec_keyRow_of_offer h hin hk hb rfl,
    fun v => ⟨(counterUpdate_onlyUp .rst v).trans inc_zero, (counterUpdate_onlyDown .rst v).trans dec_zero⟩, rfl, rfl,
    afterFrames_key 0x70 1 7777⟩

theorem decodeKey_of_not_commandKey {b : Byte} (h : ¬ IsCommandKey b) : decodeKey true b = .keyOther b := by
  simp only [not_or] at h
  obtain ⟨hu, hd, hp, hq⟩ := h
  simp only [decodeKey, if_true, if_neg hu, if_neg hd, if_neg hp, if_neg hq]

/-- An offered byte that is no command raises E4 at its INPUT cycle (60_exceptions.md R131). -/
theorem invalidInputByte_mem_raises {s : State} (hin : s.inInput = true) (hrst : s.inputs.rst = false)
    (hk : s.inputs.keyValid = true) (hb : ¬ IsCommandKey s.inputs.keyByte) : .invalidInputByte ∈ s.raises := by
  have hrow : s.keyRow = .keyOther s.inputs.keyByte := by rw [keyRow_of_offer hk, decodeKey_of_not_commandKey hb]
  have hmeets : s.meets .invalidInputByte = true := by simp [State.meets, hrst, hin, hrow, isKeyOther]
  exact List.mem_filter.2 ⟨by decide, hmeets⟩

/-- Settles O28: the row is `exec_keyRow_of_offer` at a byte that both decoders take for no command. -/
theorem keyOtherInstruction : Obligations.KeyOtherInstruction := by
  refine ⟨fun s h hin hk hb => ?row, fun b hb => ⟨keydec_of_not_commandKey hb, decodeKey_of_not_commandKey hb⟩,
    fun s hin hrst hk hb => invalidInputByte_mem_raises hin hrst hk hb, by decide, afterFrames_key 0x78 1 3⟩
  case row =>
    rw [← decodeKey_of_not_commandKey hb]
    exact exec_keyRow_of_offer h hin hk rfl (keydec_of_not_commandKey hb)

/-- Settles O29: the row is that of ports without an offer, which decode to NONE and take nothing. -/
theorem keyNoneInstruction : Obligations.KeyNoneInstruction := by
  refine ⟨fun s h hin hk => ?row, fun _ => ⟨rfl, rfl⟩, afterFrame_release 3 0x00⟩
  case row =>
    have hrow : s.keyRow = .keyNone := by rw [State.keyRow, hk]; rfl
    have hkey : s.key = (.none, false) := by rw [State.key, hk]; rfl
    have hq : s.key.2 = false := by rw [hkey]
    rw [← hrow, exec_keyRow h.1 h.2 hin, if_neg (ne_true_of_eq_false hq), takeKey_inputCycle s hq,
      if_neg (ne_true_of_eq_false hk), hkey]

/-- Settles O30: the row of 'q' is the quit transition, and the outputs of a TERMINATED state are those of a clean halt. -/
theorem keyQInstruction : Obligations.KeyQInstruction := by
  intro s h hin hk hb
  refine ⟨_, rfl, ?row, rfl, rfl, rfl⟩
  case row =>
    have hrow : s.keyRow = .keyQ := by rw [keyRow_of_offer hk, hb]; rfl
    have hkey : s.key = (.none, true) := by rw [key_of_offer hk, hb]; rfl
    have hq : s.key.2 = true := by rw [hkey]
    rw [← hrow, exec_keyRow h.1 h.2 hin, if_pos hq, takeKey_quitFrame, if_pos hk, hkey, hb]
    rfl

/-! ### The two edge commands -/

theorem loadValue_self (s : State) : s.loadValue s.value = s := rfl

/-- BTN_UP loads `v2` of 42_counter.md R91, with an UP edge or without. -/
theorem exec_btnUp_of_takesInput {s : State} (h : s.Ready) (hs : s.takesInput = true) :
    exec .btnUp s = .next (s.loadValue (applyUp s.loc.e s.value)) := by
  obtain ⟨hv, hi⟩ := h
  rw [exec_btnUp]
  cases he : s.loc.e.getLsbD 0 with
  | true => rw [rule_fires hv hi _ (by simp [hs]), applyUp_of_edge he]
  | false => rw [rule_idle hv hi _ (by simp), applyUp_of_no_edge he, loadValue_self]

/-- BTN_DOWN loads `v3` of 42_counter.md R91, with a DOWN edge or without. -/
theorem exec_btnDown_of_takesInput {s : State} (h : s.Ready) (hs : s.takesInput = true) :
    exec .btnDown s = .next (s.loadValue (applyDown s.loc.e s.value)) := by
  obtain ⟨hv, hi⟩ := h
  rw [exec_btnDown]
  cases he : s.loc.e.getLsbD 1 with
  | true => rw [rule_fires hv hi _ (by simp [hs]), applyDown_of_edge he]
  | false => rw [rule_idle hv hi _ (by simp), applyDown_of_no_edge he, loadValue_self]

/-- A good sample's value is the counter update by the edges of the sample. -/
theorem frameValue_of_good {s : State} (hb : s.inputs.btnValid = true) :
    s.frameValue = applyDown (detectEdges s.inputs.btn s.prev)
      (applyUp (detectEdges s.inputs.btn s.prev) (applyCmd s.key.1 s.value)) := by
  rw [State.frameValue, frameEdges, if_pos hb]
  rfl

/-- A button pressed in the sample is an edge exactly where it was released before. -/
theorem detectEdges_getLsbD_of_pressed {b : Byte} (p : Byte) {i : Nat} (hi : i < 8) (hb : b.getLsbD i = true) :
    (detectEdges b p).getLsbD i = !p.getLsbD i := by
  rw [detectEdges, BitVec.getLsbD_and, BitVec.getLsbD_not, hb, decide_eq_true hi, Bool.true_and, Bool.true_and]

theorem detectEdges_getLsbD_of_released {b : Byte} (p : Byte) {i : Nat} (hb : b.getLsbD i = false) :
    (detectEdges b p).getLsbD i = false := by
  rw [detectEdges, BitVec.getLsbD_and, hb, Bool.false_and]

/-- An up button pressed in the sample increments where it was released before. -/
theorem applyUp_of_pressed {b : Byte} (p : Byte) (hb : b.getLsbD 0 = true) (v : CounterValue) :
    applyUp (detectEdges b p) v = if p.getLsbD 0 = true then v else inc v := by
  rw [applyUp, detectEdges_getLsbD_of_pressed p (by decide) hb]
  cases p.getLsbD 0 <;> rfl

/-- Settles O21: the row loads `applyUp` of the mask, and a clock edge with the up button pressed has `applyUp_of_pressed` before the
DOWN edge. -/
theorem btnUpInstruction : Obligations.BtnUpInstruction := by
  refine ⟨fun s h hs he => ?press, fun s h hs he => ?noPress, fun b p => detectEdges_getLsbD_iff b p (by decide),
    fun s t h hrst hs hb hup => ?edge, fun s t h hrst hs hb hup hdown => ?edgeAlone, rfl, rfl,
    afterFrames_press_held_release 42 0x01 1⟩
  case press =>
    rw [exec_btnUp_of_takesInput h hs, applyUp_of_edge he]
    rfl
  case noPress => rw [exec_btnUp_of_takesInput h hs, applyUp_of_no_edge he, loadValue_self]
  case edge =>
    obtain ⟨hvalue, -⟩ := step_frame h hrst hs
    rw [hvalue, frameValue_of_good hb, applyUp_of_pressed s.prev hup]
    rfl
  case edgeAlone =>
    obtain ⟨hvalue, -⟩ := step_frame h hrst hs
    rw [hvalue, frameValue_of_good hb, applyUp_of_pressed s.prev hup,
      applyDown_of_no_edge (detectEdges_getLsbD_of_released s.prev hdown)]

/-- Settles O22: the row loads `applyDown` of the mask, and a clock edge with a press of the down button ends in `dec`. -/
theorem btnDownInstruction : Obligations.BtnDownInstruction := by
  refine ⟨fun s h hs he => ?press, fun s h hs he => ?noPress, fun b p => detectEdges_getLsbD_iff b p (by decide),
    fun s t h hrst hs hb hdown hprev => ?edge, rfl, fun v hv => counterUpdate_both .none hv, dec_zero, afterFrame_press 10 0x02⟩
  case press =>
    rw [exec_btnDown_of_takesInput h hs, applyDown_of_edge he]
    rfl
  case noPress => rw [exec_btnDown_of_takesInput h hs, applyDown_of_no_edge he, loadValue_self]
  case edge =>
    obtain ⟨hvalue, -⟩ := step_frame h hrst hs
    have hpress := (detectEdges_getLsbD_iff s.inputs.btn s.prev (by decide)).2 ⟨hdown, hprev⟩
    rw [hvalue, frameValue_of_good hb, applyDown_of_edge hpress]
    rfl

/-! ### The INPUT cycle as its parts -/

theorem applyUp_le (e : Byte) {v : CounterValue} (h : v.toNat ≤ 9999) : (applyUp e v).toNat ≤ 9999 := by
  cases he : e.getLsbD 0 with
  | true => rw [applyUp_of_edge he, inc_toNat]; omega
  | false => rwa [applyUp_of_no_edge he]

/-- The state `t` stands within the INPUT cycle of `s`, a frame that does not quit: each part of the cycle has a meaning there, on the
ports of `s`. -/
structure WithinInputCycle (s t : State) : Prop where
  ready : t.Ready
  takesInput : t.takesInput = true
  inputs : t.inputs = s.inputs

namespace WithinInputCycle

variable {s t : State}

theorem refl (h : s.Ready) (hs : s.takesInput = true) : WithinInputCycle s s := ⟨h, hs, rfl⟩

theorem key_eq (ht : WithinInputCycle s t) : t.key = s.key := by rw [State.key, ht.inputs, State.key]

theorem btnRow_eq (ht : WithinInputCycle s t) : t.btnRow = s.btnRow := by rw [State.btnRow, ht.inputs, State.btnRow]

/-- The invariants of a RUNNING frame bound `value`, and leave `prev`, the events and the locals free. -/
theorem of_frame (ht : WithinInputCycle s t) {v : CounterValue} (hv : v.toNat ≤ 9999) (p : Byte) (ev : List Event) (l : Locals) :
    WithinInputCycle s { t with value := v, prev := p, trace := ev, loc := l } := by
  obtain ⟨⟨hcfg, -, hcnt, hin, hidle, hdisp, -⟩, htakes, hinputs⟩ := ht
  obtain ⟨hinput, -⟩ := (takesInput_iff t).1 htakes
  obtain ⟨hrun, -⟩ := (inInput_iff t).1 hinput
  exact ⟨⟨hcfg, hv, hcnt, hin, hidle, hdisp, fun hinit => absurd (hrun.symm.trans hinit) nofun⟩, htakes, hinputs⟩

theorem value_le (ht : WithinInputCycle s t) : t.value.toNat ≤ 9999 := by
  obtain ⟨-, hv, -⟩ := ht.ready
  exact hv

theorem takeKey (ht : WithinInputCycle s t) : WithinInputCycle s t.takeKey := by
  rw [takeKey_eq]
  exact ht.of_frame ht.value_le _ _ _

theorem sample (ht : WithinInputCycle s t) : WithinInputCycle s t.sample := by
  unfold State.sample
  split
  · exact ht.of_frame ht.value_le _ _ _
  · exact ht.of_frame ht.value_le _ _ _

theorem loadValue (ht : WithinInputCycle s t) {v : CounterValue} (hv : v.toNat ≤ 9999) : WithinInputCycle s (t.loadValue v) :=
  ht.of_frame hv _ _ _

/-! Each row within the cycle. -/

theorem exec_keyDecode (ht : WithinInputCycle s t) : exec (.keyDecode s.inputs.keyByte) t = .next t.takeKey := by
  obtain ⟨hinput, -⟩ := (takesInput_iff t).1 ht.takesInput
  rw [← ht.inputs, exec_keyDecode_of_inInput ht.ready hinput]

theorem exec_btnRow (ht : WithinInputCycle s t) : exec s.btnRow t = .next t.sample := by
  rw [← ht.btnRow_eq]
  cases hb : t.inputs.btnValid with
  | true =>
    rw [btnRow_eq_btnSample hb, exec_btnSample_of_good ht.ready ht.takesInput hb, State.sample, if_pos hb]
  | false =>
    rw [btnRow_eq_readError hb, exec_readError_of_failed ht.ready ht.takesInput hb, State.sample,
      if_neg (ne_true_of_eq_false hb)]

theorem exec_counterUpdate (ht : WithinInputCycle s t) (kc : Cmd) : exec (.counterUpdate kc) t = .next (t.updateCounter kc) := by
  obtain ⟨hv, hi⟩ := ht.ready
  rw [Machine.exec_counterUpdate, rule_fires hv hi _ ht.takesInput]

theorem exec_inputCycle (ht : WithinInputCycle s t) : exec .inputCycle t = .next t.inputCycle :=
  exec_inputCycle_of_takesInput ht.ready ht.takesInput

/-- Key command, UP edge and DOWN edge one after the other are the counter update (42_counter.md R91). -/
theorem runRules_commands (ht : WithinInputCycle s t) (kc : Cmd) :
    runRules [cmdInstr kc, .btnUp, .btnDown] t = .next (t.updateCounter kc) := by
  have h1 : (applyCmd kc t.value).toNat ≤ 9999 := applyCmd_le kc ht.value_le
  have ht1 : WithinInputCycle s (t.loadValue (applyCmd kc t.value)) := ht.loadValue h1
  have ht2 : WithinInputCycle s ((t.loadValue (applyCmd kc t.value)).loadValue (applyUp t.loc.e (applyCmd kc t.value))) :=
    ht1.loadValue (applyUp_le _ h1)
  rw [runRules_cons, exec_cmdInstr_of_takesInput ht.ready ht.takesInput, andThen_of_next, runRules_cons,
    exec_btnUp_of_takesInput ht1.ready ht1.takesInput, andThen_of_next, runRules_singleton]
  exact exec_btnDown_of_takesInput ht2.ready ht2.takesInput

end WithinInputCycle

/-- Settles O45: every part has a meaning where the parts before it lead, and `State.inputCycle` is the sample, the counter update and the
move. -/
theorem inputCycleIsItsParts : Obligations.InputCycleIsItsParts := by
  intro s h hs
  have hcycle : WithinInputCycle s s := .refl h hs
  obtain ⟨hin, hq⟩ := (takesInput_iff s).1 hs
  have hrow : exec s.keyRow s = .next s.takeKey.inputCycle :=
    (exec_keyRow h.1 h.2 hin).trans (congrArg _ (if_neg (ne_true_of_eq_false hq)))
  refine ⟨hrow.trans ?parts, hrow.trans ?keyThenCycle, ?sampleThenCounter⟩
  case parts =>
    rw [runRules_cons, hcycle.exec_keyDecode, andThen_of_next, runRules_cons, hcycle.takeKey.exec_btnRow, andThen_of_next,
      hcycle.takeKey.sample.runRules_commands, andThen_of_next, State.inputCycle, hcycle.takeKey.key_eq]
    rfl
  case keyThenCycle =>
    rw [runRules_cons, hcycle.exec_keyDecode, andThen_of_next, runRules_singleton, hcycle.takeKey.exec_inputCycle]
  case sampleThenCounter =>
    rw [hcycle.exec_inputCycle, runRules_cons, hcycle.exec_btnRow, andThen_of_next, runRules_singleton,
      hcycle.sample.exec_counterUpdate]
    rfl

end Sys2Proof.Machine
end

section
/-! PROOFS. The clock edge as the cycle step of 44_frame_control.md R123, and where the run state goes (R110, R111). -/

namespace Sys2Proof.Machine

/-! ### The display write of a DIGIT cycle -/

/-- The word that a DIGIT cycle leaves on the outputs: its digit's in the first cycle of a dwell, and then the one that stands
(43_multiplexer.md R102). `writeDueDigit_eq` ties it to the edge. -/
def State.shownWord (s : State) : DisplayWord := if s.cnt = 0 then digitWord s.cfg s.value s.k else s.disp

/-- The event of the write, where it is due. -/
def State.dueWrites (s : State) : List Event := if s.cnt = 0 then [.dispWrite (digitWord s.cfg s.value s.k)] else []

/-- All that an edge in a DIGIT cycle does before the sequencer moves; the encoder's output stands in `loc`. -/
theorem writeDueDigit_eq (s : State) :
    s.beginEdge.writeDueDigit = { s with
      disp := s.shownWord
      we := decide (s.cnt = 0)
      offer := s.untaken
      trace := s.trace ++ s.dueWrites
      loc := s.beginEdge.writeDueDigit.loc } := by
  unfold State.shownWord State.dueWrites
  by_cases h0 : s.cnt = 0
  · rw [State.writeDueDigit_of_first (s := s.beginEdge) h0, if_pos h0, if_pos h0, decide_eq_true h0]
    rfl
  · rw [State.writeDueDigit_of_not_first (s := s.beginEdge) h0, if_neg h0, if_neg h0, decide_eq_false h0, List.append_nil]
    rfl

/-! ### The cycle step, one kind of cycle at a time -/

section
variable {s : State} {i : Inputs}

theorem cycleStep_reset (hrst : i.rst = true) :
    cycleStep s i =
      ({ s with value := 0, prev := 0, run := .init, phase := .input, k := 0, cnt := 0, disp := 0, we := false }, []) := by
  rw [cycleStep, if_pos hrst]

theorem cycleStep_init (hrst : i.rst = false) (hrun : s.run = .init) :
    cycleStep s i =
      if i.devOk = true then ({ s with we := false, run := .running }, [])
      else ({ s with we := false, run := .failed }, [.halt 1]) := by
  rw [cycleStep, if_neg (ne_true_of_eq_false hrst)]
  simp only [hrun]

theorem cycleStep_halted (hrst : i.rst = false) (hhalt : s.isHalted = true) : cycleStep s i = ({ s with we := false }, []) := by
  rw [cycleStep, if_neg (ne_true_of_eq_false hrst)]
  rcases (isHalted_iff s).1 hhalt with hrun | hrun <;> simp only [hrun]

theorem cycleStep_quit (hrst : i.rst = false) (hin : s.inInput = true) (hq : (keydec i.keyValid i.keyByte).2 = true) :
    cycleStep s i =
      ({ s with we := true, run := .terminated, disp := 0x0000 },
        (if i.keyValid = true then [.keyTaken i.keyByte] else []) ++ [.btnSampled (sampleOf i)] ++
          [.dispWrite 0x0000, .halt 0]) := by
  obtain ⟨hrun, hphase⟩ := (inInput_iff s).1 hin
  rw [cycleStep, if_neg (ne_true_of_eq_false hrst)]
  simp only [hrun, hphase, hq, if_true]
  rfl

theorem cycleStep_input (hrst : i.rst = false) (hin : s.inInput = true) (hq : (keydec i.keyValid i.keyByte).2 = false) :
    cycleStep s i =
      ({ s with
          we := false
          prev := if i.btnValid = true then i.btn else s.prev
          value := counterUpdate (keydec i.keyValid i.keyByte).1 (frameEdges i s.prev) s.value
          phase := .digit
          k := 0
          cnt := 0 },
        (if i.keyValid = true then [.keyTaken i.keyByte] else []) ++ [.btnSampled (sampleOf i)]) := by
  obtain ⟨hrun, hphase⟩ := (inInput_iff s).1 hin
  rw [cycleStep, if_neg (ne_true_of_eq_false hrst)]
  simp only [hrun, hphase, hq]
  rfl

/-- A DIGIT cycle shows and strobes the digit's word where it is due, and then moves the sequencer. -/
theorem cycleStep_digit (hrst : i.rst = false) (hd : s.inDigit = true) :
    cycleStep s i =
      let written : State := { s with disp := s.shownWord, we := decide (s.cnt = 0) }
      if s.cnt < s.cfg.dwellCycles - 1 then ({ written with cnt := s.cnt + 1 }, s.dueWrites)
      else if s.k < 3 then ({ written with cnt := 0, k := s.k + 1 }, s.dueWrites)
      else ({ written with cnt := 0, k := 0, phase := .input }, s.dueWrites) := by
  obtain ⟨hrun, hphase⟩ := (inDigit_iff s).1 hd
  rw [cycleStep, if_neg (ne_true_of_eq_false hrst)]
  unfold State.shownWord State.dueWrites
  simp only [hrun, hphase]
  by_cases h0 : s.cnt = 0
  · simp only [h0, if_true]
    rfl
  · simp only [h0, if_false]
    rfl

end

/-! ### The edge leads where the cycle step does -/

/-- The state after an edge from `s` that loads the registers of `r.1` and emits `r.2`: the model's own fields move as log 1, 10, 11
and 19 say. `EdgeCase.eq_cycleStep` ties it to the step. -/
def State.afterEdge (s : State) (r : State × List Event) : State :=
  { r.1 with trace := s.trace ++ r.2, stim := s.stim.tail, cycle := s.cycle + 1, offer := s.untaken, loc := Locals.idle }

theorem afterEdge_of_no_events (s t : State) :
    s.afterEdge (t, []) =
      { t with trace := s.trace, stim := s.stim.tail, cycle := s.cycle + 1, offer := s.untaken, loc := Locals.idle } := by
  rw [State.afterEdge, List.append_nil]

theorem startUp_eq_cycleStep {s : State} (hrst : s.inputs.rst = false) (hrun : s.run = .init) :
    s.beginEdge.startUp.endEdge = s.afterEdge (cycleStep s s.inputs) := by
  rw [cycleStep_init hrst hrun, State.startUp, beginEdge_inputs]
  split
  · rw [afterEdge_of_no_events]
    rfl
  · rfl

theorem advance_eq_cycleStep {s : State} (hrst : s.inputs.rst = false) (hd : s.inDigit = true)
    (hlast : s.cnt = s.cfg.dwellCycles - 1) :
    s.beginEdge.writeDueDigit.advanceDigit.endEdge = s.afterEdge (cycleStep s s.inputs) := by
  have hk : s.beginEdge.writeDueDigit.k = s.k := writeDueDigit_k s.beginEdge
  rw [cycleStep_digit hrst hd, if_neg hlast.not_lt]
  by_cases hones : s.k = 3
  · rw [advanceDigit_of_ones (hk.trans hones), if_neg (by rw [hones]; decide), writeDueDigit_eq]
    rfl
  · rw [advanceDigit_of_not_ones (hk ▸ hones), if_pos (by bv_omega), writeDueDigit_eq]
    rfl

theorem dwell_eq_cycleStep {s : State} (hrst : s.inputs.rst = false) (hd : s.inDigit = true)
    (hlt : s.cnt < s.cfg.dwellCycles - 1) :
    s.beginEdge.writeDueDigit.stepDwell.endEdge = s.afterEdge (cycleStep s s.inputs) := by
  rw [cycleStep_digit hrst hd, if_pos hlt, writeDueDigit_eq]
  rfl

theorem EdgeCase.eq_cycleStep {s t : State} (h : EdgeCase s t) : t = s.afterEdge (cycleStep s s.inputs) := by
  cases h with
  | reset hrst =>
    rw [cycleStep_reset hrst, afterEdge_of_no_events]
    rfl
  | init hrst hrun => exact startUp_eq_cycleStep hrst hrun
  | halted hrst hhalt =>
    rw [cycleStep_halted hrst hhalt, afterEdge_of_no_events]
    rfl
  | quit hrst hin hq =>
    rw [cycleStep_quit hrst hin hq, takeKey_quitFrame, List.append_assoc]
    rfl
  | input hrst hin hq =>
    rw [cycleStep_input hrst hin hq, takeKey_inputCycle s.beginEdge hq]
    rfl
  | advance hrst hd hlast => exact advance_eq_cycleStep hrst hd hlast
  | dwell hrst hd hlt => exact dwell_eq_cycleStep hrst hd hlt

theorem untaken_eq_ite (s : State) :
    s.untaken = if s.inputs.keyValid = true ∧ s.outputs.keyRdy = false then some s.inputs.keyByte else none := by
  unfold State.untaken
  cases s.inputs.keyValid <;> cases s.outputs.keyRdy <;> rfl

/-- Settles O39: an edge that has a meaning is one of its cases, and each case is the cycle step. -/
theorem stepIsTheCycleStep : Obligations.StepIsTheCycleStep := by
  intro s hc
  obtain ⟨t, ht⟩ := exists_step hc
  rw [ht, (edgeCase_of_step ht).eq_cycleStep, State.afterEdge, untaken_eq_ite]

/-! ### The run state -/

/-- Where an edge without reset takes the run state (44_frame_control.md R110, 70_reset_and_hazards.md R147). `step_run` ties it to the
step. -/
def State.nextRun (s : State) : RunState :=
  match s.run with
  | .init => if s.inputs.devOk = true then .running else .failed
  | .running => if s.inInput = true ∧ s.key.2 = true then .terminated else .running
  | .terminated => .terminated
  | .failed => .failed

theorem nextRun_of_running {s : State} (hrun : s.run = .running) :
    s.nextRun = if s.inInput = true ∧ s.key.2 = true then .terminated else .running := by
  simp only [State.nextRun, hrun]

theorem startUp_run (s : State) : s.startUp.run = if s.inputs.devOk = true then .running else .failed := by
  unfold State.startUp
  exact apply_ite State.run _ _ _

theorem advanceDigit_run (s : State) : s.advanceDigit.run = s.run := by
  unfold State.advanceDigit
  split <;> rfl

theorem writeDueDigit_run (s : State) : s.writeDueDigit.run = s.run := by
  unfold State.writeDueDigit
  split <;> rfl

theorem step_run {s t : State} (h : step s = .next t) (hrst : s.inputs.rst = false) : t.run = s.nextRun := by
  have keeps : s.inDigit = true → s.nextRun = s.run := fun hd => by
    obtain ⟨hrun, hphase⟩ := (inDigit_iff s).1 hd
    rw [nextRun_of_running hrun, if_neg (by simp [inInput_iff, hphase]), hrun]
  cases edgeCase_of_step h with
  | reset hr => exact absurd (hrst.symm.trans hr) nofun
  | init _ hrun =>
    simp only [State.nextRun, hrun]
    exact startUp_run s.beginEdge
  | halted _ hhalt => rcases (isHalted_iff s).1 hhalt with hrun | hrun <;> simp [State.nextRun, hrun]
  | quit _ hin hq =>
    obtain ⟨hrun, -⟩ := (inInput_iff s).1 hin
    rw [nextRun_of_running hrun, if_pos ⟨hin, hq⟩, takeKey_quitFrame]
    rfl
  | input _ hin hq =>
    obtain ⟨hrun, -⟩ := (inInput_iff s).1 hin
    rw [nextRun_of_running hrun, if_neg (by simp [hq]), takeKey_inputCycle s.beginEdge hq]
    exact hrun
  | advance _ hd => exact (advanceDigit_run _).trans ((writeDueDigit_run s.beginEdge).trans (keeps hd).symm)
  | dwell _ hd => exact (writeDueDigit_run s.beginEdge).trans (keeps hd).symm

/-- Settles O46: each clause is a row of `State.nextRun`. -/
theorem runStateTransitions : Obligations.RunStateTransitions := by
  intro s t h hrst
  rw [step_run h hrst]
  refine ⟨fun hrun => ?stays, fun hrun => ?quits, fun hrun => ?terminated, fun hrun => ?failed, fun hrun => ?init⟩
  case stays =>
    rw [nextRun_of_running hrun]
    split
    · exact .inr rfl
    · exact .inl rfl
  case quits =>
    rw [nextRun_of_running hrun, ← key_quits_iff]
    simp [inInput_iff, hrun]
  case terminated | failed | init => simp only [State.nextRun, hrun]

/-- Settles O33: the row is `State.hold`, and so is the edge of a halt state. -/
theorem haltedInstruction : Obligations.HaltedInstruction := by
  intro s h hhalt
  obtain ⟨hv, hi⟩ := h
  refine ⟨rule_fires hv hi _ hhalt, ?closed, fun hrst ho => step_of_edgeCase ⟨hv, ho, .inr hi⟩ (.halted hrst hhalt)⟩
  case closed => rcases (isHalted_iff s).1 hhalt with hrun | hrun <;> exact keyRdy_of_not_running (by simp [hrun])

end Sys2Proof.Machine
end

section
/-! PROOFS. The frame as a whole (44_frame_control.md R124), and how long an offered key waits for the next INPUT cycle (R126). -/

namespace Sys2Proof.Machine

theorem runFor_one (s : State) : runFor 1 s = step s := by
  rw [runFor_succ]
  cases step s <;> rfl

/-! ### What the edge of a DIGIT cycle keeps -/

theorem step_keeps_of_inDigit {s t : State} (h : step s = .next t) (hrst : s.inputs.rst = false) (hd : s.inDigit = true) :
    t.value = s.value ∧ t.prev = s.prev ∧ keysOf t.trace = keysOf s.trace := by
  have hclosed := takesInput_eq_false_of_inDigit hd
  refine ⟨step_value_of_not_takesInput h hrst hclosed, step_prev_of_not_takesInput h hrst hclosed, ?keys⟩
  case keys => rw [step_keys h hrst, keyRdy_of_inDigit hd, if_neg (by simp), List.append_nil]

/-- The words sent by the edge of a DIGIT cycle: its digit's where it is due. -/
theorem step_writes_of_inDigit {s t : State} (h : step s = .next t) (hrst : s.inputs.rst = false) (hd : s.inDigit = true) :
    writesOf t.trace = writesOf s.trace ++ if s.cnt = 0 then [digitWord s.cfg s.value s.k] else [] := by
  obtain ⟨-, hone, hnone⟩ := step_strobe h
  obtain ⟨hwe, hdisp⟩ := step_outputs_of_inDigit h hrst hd
  split_ifs at hdisp ⊢ with h0
  · rw [hone (hwe.2 h0), hdisp]
  · obtain ⟨hkept, -⟩ := hnone (Bool.eq_false_iff.2 (hwe.not.2 h0))
    rw [hkept, List.append_nil]

/-! ### The frame that quits -/

theorem step_of_quit {s t : State} (h : step s = .next t) (hrst : s.inputs.rst = false) (hin : s.inInput = true)
    (hq : s.key.2 = true) : t.run = .terminated ∧ writesOf t.trace = writesOf s.trace ++ [0x0000] := by
  obtain ⟨hrun, -⟩ := (inInput_iff s).1 hin
  obtain ⟨hdisp, hwe⟩ := step_blanks_of_quit h hrst hin hq
  obtain ⟨-, hone, -⟩ := step_strobe h
  refine ⟨?_, hdisp ▸ hone hwe⟩
  rw [step_run h hrst, nextRun_of_running hrun, if_pos ⟨hin, hq⟩]

/-! ### The frame that does not quit -/

/-- The state `u` comes in the frame begun in `s`, once its first `n` words are sent: the button copy is that of the frame.
`frameProgress_of_runFor` ties it to the runs from `s`. -/
structure FrameProgress (s : State) (n : Nat) (u : State) : Prop where
  prev : u.prev = s.framePrev
  writes : writesOf u.trace = writesOf s.trace ++ (frameWords s.cfg s.frameValue).take n

/-- The INPUT cycle stores the sample and sends nothing. -/
theorem frameProgress_zero {s t : State} (hin : s.takesInput = true) (hrst : s.inputs.rst = false) (h : step s = .next t) :
    FrameProgress s 0 t := by
  obtain ⟨-, hq⟩ := (takesInput_iff s).1 hin
  obtain ⟨-, hprev⟩ := step_frame h hrst hin
  obtain ⟨-, -, hwrites⟩ := keyCycle_sendsNone (s := s.beginEdge) hq
  refine ⟨hprev, ?_⟩
  rw [step_of_takesInput h hrst hin, List.take_zero, List.append_nil]
  exact hwrites

theorem frameWords_getElem? (c : Config) (v : CounterValue) (k : BitVec 2) :
    (frameWords c v)[k.toNat]? = some (digitWord c v k) := by
  have hk : k = 0 ∨ k = 1 ∨ k = 2 ∨ k = 3 := by
    revert k
    decide
  rcases hk with rfl | rfl | rfl | rfl <;> rfl

/-- The edge that ends cycle `j` of the DIGIT phase sends the word of position `j div DWELL_CYCLES` in the first cycle of that position's
dwell, so after it the words up to that position are sent. -/
theorem DigitCycle.frameProgress {s u t : State} {j n : Nat} (hu : DigitCycle s j u) (hrst : u.inputs.rst = false)
    (h : step u = .next t) (hn : n + (if j % s.cfg.dwellCycles = 0 then 1 else 0) = j / s.cfg.dwellCycles + 1)
    (hp : FrameProgress s n u) : FrameProgress s (j / s.cfg.dwellCycles + 1) t := by
  obtain ⟨-, hprev, -⟩ := step_keeps_of_inDigit h hrst hu.inDigit
  obtain ⟨hdiv, hmod⟩ := hu.div_mod
  refine ⟨hprev.trans hp.prev, ?_⟩
  rw [step_writes_of_inDigit h hrst hu.inDigit, hp.writes, hu.cfg, hu.value, ← hn, hmod, List.append_assoc]
  rw [hdiv, hmod] at hn
  split_ifs at hn ⊢ with h0
  · have hnk : n = u.k.toNat := by omega
    rw [List.take_add_one, hnk, frameWords_getElem?, Option.toList_some]
  · rw [List.append_nil, Nat.add_zero]

section
variable {s : State} (hs : s.Ready) (hin : s.takesInput = true) (ho : s.offerHeld = true)
include hs hin ho

/-- After the edge that ends cycle `j` of the DIGIT phase the words of the positions 0 to `j div DWELL_CYCLES` are sent. -/
theorem frameProgress_of_runFor {j : Nat} (hj : j < 4 * s.cfg.dwellCycles) (hrst : s.NoReset (1 + (j + 1)))
    (hold : s.HoldsOffers 1 (1 + j)) {t : State} (ht : runFor (1 + (j + 1)) s = .next t) :
    FrameProgress s (j / s.cfg.dwellCycles + 1) t := by
  obtain ⟨u, t', hu, hcycle, hrstu, ht', hrun⟩ := exists_digitEdge hs hin ho hj hrst hold
  cases hrun.symm.trans ht
  induction j generalizing u t with
  | zero =>
    have hstep : step s = .next u := (runFor_one s).symm.trans hu
    have hu0 : FrameProgress s 0 u := frameProgress_zero hin (hrst 0 (by omega)) hstep
    exact hcycle.frameProgress hrstu ht' (by rw [Nat.zero_mod, Nat.zero_div, if_pos rfl]) hu0
  | succ j ih =>
    obtain ⟨v, u', hv, hcycle', hrstv, hu', hrun'⟩ :=
      exists_digitEdge hs hin ho (j := j) (by omega) (fun i hi => hrst i (by omega)) (holdsOffers_mono hold le_rfl (by omega))
    cases hrun'.symm.trans hu
    have hsent : FrameProgress s (j / s.cfg.dwellCycles + 1) u :=
      ih (by omega) (fun i hi => hrst i (by omega)) (holdsOffers_mono hold le_rfl (by omega)) hu v hv hcycle' hrstv hu' hrun'
    refine hcycle.frameProgress hrstu ht' ?_ hsent
    simp only [Nat.succ_div, Nat.dvd_iff_mod_eq_zero]
    omega

end

/-- Settles O54: a frame that quits is one edge; any other is at cycle `j` of its DIGIT phase by `DigitCycle`, and after that cycle's edge
has sent the words that `FrameProgress` counts. -/
theorem frameFunction : Obligations.FrameFunction := by
  intro s hs hinput ho hrst1
  have hrst0 : s.inputs.rst = false := hrst1 0 Nat.one_pos
  have hpos : 1 ≤ s.cfg.dwellCycles := hs.1.1
  refine ⟨fun hq => ?quits, fun hq hrst hold => ?goesOn⟩
  case quits =>
    obtain ⟨t, ht⟩ := exists_step ⟨hs.1, ho, .inr hs.2⟩
    exact ⟨t, (runFor_one s).trans ht, step_of_quit ht hrst0 hinput hq⟩
  case goesOn =>
    have hin := (takesInput_iff s).2 ⟨hinput, hq⟩
    refine ⟨?wholeFrame, fun m hm => ?eachWord, fun j hj => ?closedPorts⟩
    case wholeFrame =>
      obtain ⟨t, hrun, -, -, hnext, hvalue, -⟩ := exists_nextInputCycle hs hin ho hrst hold
      obtain ⟨hrunning, hphase⟩ := (inInput_iff t).1 hnext
      have hlast : 4 * s.cfg.dwellCycles = 4 * s.cfg.dwellCycles - 1 + 1 := by omega
      have hp := frameProgress_of_runFor hs hin ho (j := 4 * s.cfg.dwellCycles - 1) (by omega) (hlast ▸ hrst)
        (holdsOffers_mono hold le_rfl (by omega)) (hlast ▸ hrun)
      have hones : (4 * s.cfg.dwellCycles - 1) / s.cfg.dwellCycles = 3 := Nat.div_eq_of_lt_le (by omega) (by omega)
      rw [hones] at hp
      refine ⟨t, hrun, hrunning, hphase, hvalue, hp.prev, ?_⟩
      rw [hvalue, hp.writes]
      rfl
    case eachWord =>
      have hj : m * s.cfg.dwellCycles < 4 * s.cfg.dwellCycles := Nat.mul_lt_mul_of_pos_right hm hpos
      have hrstj : s.NoReset (1 + (m * s.cfg.dwellCycles + 1)) := fun i hi => hrst i (by omega)
      have holdj : s.HoldsOffers 1 (1 + m * s.cfg.dwellCycles) := holdsOffers_mono hold le_rfl (by omega)
      obtain ⟨u, t, -, hu, hrstu, ht, hrun⟩ := exists_digitEdge hs hin ho hj hrstj holdj
      obtain ⟨hdisp, hwe⟩ := hu.step_outputs hrstu ht
      have hp := frameProgress_of_runFor hs hin ho hj hrstj holdj hrun
      rw [Nat.mul_div_cancel _ hpos] at hdisp hp
      refine ⟨t, hrun, hwe.2 (Nat.mul_mod_left _ _), ?_, hp.writes⟩
      rw [hdisp, ← frameWords_getElem?, BitVec.toNat_ofNat, Nat.mod_eq_of_lt (by omega)]
    case closedPorts =>
      obtain ⟨u, hrun, hu, -⟩ :=
        exists_digitCycle hs hin ho hj (fun i hi => hrst i (by omega)) (holdsOffers_mono hold le_rfl (by omega))
      have hrdy := keyRdy_of_inDigit hu.inDigit
      exact ⟨u, hrun, hrdy, hrdy⟩

/-! ### An offered key waits for the next INPUT cycle -/

/-- The cycles of a DIGIT phase before this one (43_multiplexer.md R97). -/
def State.digitPosition (s : State) : Nat := s.k.toNat * s.cfg.dwellCycles + s.cnt

/-- A DIGIT phase has `4 × DWELL_CYCLES` cycles. -/
theorem digitPosition_lt {s : State} (hs : s.Ready) : s.digitPosition < 4 * s.cfg.dwellCycles := by
  obtain ⟨-, -, hcnt, -⟩ := hs
  have hk : s.k.toNat * s.cfg.dwellCycles ≤ 3 * s.cfg.dwellCycles := Nat.mul_le_mul_right _ (by omega)
  unfold State.digitPosition
  omega

/-- Each edge of the DIGIT phase is one cycle less to wait, and the last leads to the INPUT cycle. -/
theorem step_digitPosition {s t : State} (hs : s.Ready) (h : step s = .next t) (hrst : s.inputs.rst = false)
    (hd : s.inDigit = true) :
    (t.inDigit = true ∧ t.digitPosition = s.digitPosition + 1) ∨
      (t.inInput = true ∧ s.digitPosition + 1 = 4 * s.cfg.dwellCycles) := by
  unfold State.digitPosition
  rw [step_cfg h]
  cases sequencerMove_of_step hs h hrst hd with
  | dwell _ hd' hk hcnt => exact .inl ⟨hd', by rw [hk, hcnt, Nat.add_assoc]⟩
  | nextDigit hlast hk3 hd' hk hcnt =>
    have hsucc : t.k.toNat = s.k.toNat + 1 := by rw [hk]; bv_omega
    exact .inl ⟨hd', by rw [hsucc, hcnt, Nat.add_zero, Nat.succ_mul, Nat.add_assoc, hlast]⟩
  | nextFrame hlast hk3 hin =>
    refine .inr ⟨hin, ?_⟩
    rw [hk3, Nat.add_assoc, hlast]
    exact (Nat.succ_mul 3 _).symm

/-- The run through the `n` cycles left of a DIGIT phase: it is at the INPUT cycle, and has taken no byte and kept `value` and `prev`. -/
theorem exists_inputCycle_of_inDigit {n : Nat} {s : State} (hs : s.Ready) (hd : s.inDigit = true)
    (hn : n + s.digitPosition = 4 * s.cfg.dwellCycles) (ho : s.offerHeld = true) (hrst : s.NoReset n)
    (hold : s.HoldsOffers 0 (n - 1)) :
    ∃ t, runFor n s = .next t ∧ t.Ready ∧ t.inInput = true ∧ t.value = s.value ∧ t.prev = s.prev ∧
      keysOf t.trace = keysOf s.trace ∧ (s.HoldsOffers 0 n → t.offerHeld = true) := by
  induction n generalizing s with
  | zero =>
    have hlt := digitPosition_lt hs
    omega
  | succ n ih =>
    have hrst0 : s.inputs.rst = false := hrst 0 (by omega)
    obtain ⟨u, hu⟩ := exists_step ⟨hs.1, ho, .inr hs.2⟩
    have hus := step_ready hs hu
    obtain ⟨hvalue, hprev, hkeys⟩ := step_keeps_of_inDigit hu hrst0 hd
    have hinputs := step_inputAt hu
    rcases step_digitPosition hs hu hrst0 hd with ⟨hd', hposition⟩ | ⟨hinput, hlast⟩
    · have hn' : n + u.digitPosition = 4 * u.cfg.dwellCycles := by rw [step_cfg hu, hposition]; omega
      have hlt := digitPosition_lt hus
      have hou : u.offerHeld = true :=
        offerHeld_of_holdsOffers hu (hinputs 0) (holdsOffers_mono hold le_rfl (by omega))
      have hrst' : u.NoReset n := fun j hj => by rw [hinputs]; exact hrst (j + 1) (by omega)
      have hold' : u.HoldsOffers 0 (n - 1) := holdsOffers_shift hinputs (holdsOffers_mono hold (by omega) (by omega))
      obtain ⟨t, hrun, ht, hin, htvalue, htprev, htkeys, hot⟩ := ih hus hd' hn' hou hrst' hold'
      refine ⟨t, ?_, ht, hin, htvalue.trans hvalue, htprev.trans hprev, htkeys.trans hkeys,
        fun holdn => hot (holdsOffers_shift hinputs (holdsOffers_mono holdn (by omega) le_rfl))⟩
      rw [runFor_succ, hu, andThen_of_next, hrun]
    · obtain rfl : n = 0 := by omega
      exact ⟨u, (runFor_one s).trans hu, hus, hinput, hvalue, hprev, hkeys, offerHeld_of_holdsOffers hu (hinputs 0)⟩

/-- An offer held over `n` edges stands on the ports of the edge after them. -/
theorem inputAt_of_holdsOffers {s : State} {n : Nat} (hk : s.inputs.keyValid = true) (hold : s.HoldsOffers 0 n) :
    (s.inputAt n).keyValid = true ∧ (s.inputAt n).keyByte = s.inputs.keyByte := by
  induction n with
  | zero => exact ⟨hk, rfl⟩
  | succ n ih =>
    obtain ⟨hvalid, hbyte⟩ := ih (holdsOffers_mono hold le_rfl (by omega))
    obtain ⟨hvalid', hbyte'⟩ := hold n (by omega) (by omega) hvalid
    exact ⟨hvalid', hbyte'.trans hbyte⟩

/-- The edge of an INPUT cycle takes the byte offered to it, which then stands on offer no more (20_memory.md R39). -/
theorem step_takes_offer {s t : State} (h : step s = .next t) (hrst : s.inputs.rst = false) (hin : s.inInput = true)
    (hk : s.inputs.keyValid = true) : keysOf t.trace = keysOf s.trace ++ [s.inputs.keyByte] ∧ t.offer = none := by
  have hrdy : s.outputs.keyRdy = true := hin
  refine ⟨by rw [step_keys h hrst, if_pos ⟨hk, hrdy⟩], ?_⟩
  rw [step_offer h, State.untaken, hk, hrdy]
  rfl

/-- Settles O56: the cycles left are counted down by `step_digitPosition`, and the INPUT cycle they lead to takes the byte that was held. -/
theorem keyWaitsAtMostFourDwells : Obligations.KeyWaitsAtMostFourDwells := by
  intro s n hs hd hn ho
  have hlt := digitPosition_lt hs
  unfold State.digitPosition at hlt
  refine ⟨by omega, by omega, fun hrst hold => ?waits, fun hk hrst hold => ?taken⟩
  case waits =>
    obtain ⟨t, hrun, -, hin, hvalue, hprev, hkeys, -⟩ := exists_inputCycle_of_inDigit hs hd hn ho hrst hold
    exact ⟨t, hrun, hin, hvalue, hprev, hkeys⟩
  case taken =>
    obtain ⟨u, hrun, hu, hin, -, -, hkeys, hou⟩ :=
      exists_inputCycle_of_inDigit hs hd hn ho (fun j hj => hrst j (by omega)) (holdsOffers_mono hold le_rfl (by omega))
    obtain ⟨t, ht⟩ := exists_step ⟨hu.1, hou hold, .inr hu.2⟩
    have hports : u.inputs = s.inputAt n := by
      have hshift := runFor_inputAt hrun 0
      rwa [Nat.zero_add] at hshift
    obtain ⟨hvalid, hbyte⟩ := inputAt_of_holdsOffers hk hold
    rw [← hports] at hvalid hbyte
    obtain ⟨htaken, hoffer⟩ := step_takes_offer ht (runFor_rst hrun hrst (by omega)) hin hvalid
    exact ⟨t, runFor_snoc hrun ht, by rw [htaken, hkeys, hbyte], hoffer⟩

end Sys2Proof.Machine
end

section
/-! PROOFS. The errors (60_exceptions.md): when an edge meets each of them, and what such an edge does. -/

namespace Sys2Proof.Machine

/-! ### When an edge meets an error -/

theorem meets_deviceOpen_iff (s : State) :
    s.meets .deviceOpen = true ↔ s.inputs.rst = false ∧ s.run = .init ∧ s.inputs.devOk = false := by
  simp [State.meets, and_assoc]

theorem meets_hardwareRead_iff (s : State) :
    s.meets .hardwareRead = true ↔ s.inputs.rst = false ∧ s.takesInput = true ∧ s.inputs.btnValid = false := by
  simp [State.meets, and_assoc]

/-- KEY_OTHER is the row of exactly the offered bytes without a command (60_exceptions.md R131). -/
theorem isKeyOther_decodeKey_iff (valid : Bool) (b : Byte) :
    isKeyOther (decodeKey valid b) = true ↔ valid = true ∧ ¬ IsCommandKey b := by
  cases valid with
  | false => simp [decodeKey, isKeyOther]
  | true =>
    by_cases hb : IsCommandKey b
    · rcases hb with rfl | rfl | rfl | rfl <;> decide
    · simp [decodeKey_of_not_commandKey hb, isKeyOther, hb]

theorem meets_invalidInputByte_iff (s : State) :
    s.meets .invalidInputByte = true ↔
      s.inputs.rst = false ∧ s.inInput = true ∧ s.inputs.keyValid = true ∧ ¬ IsCommandKey s.inputs.keyByte := by
  rw [← isKeyOther_decodeKey_iff, ← State.keyRow]
  simp [State.meets, and_assoc]

/-! ### What such an edge does -/

/-- A failed device check ends in FAILED and reports it; the display keeps the blank word that INIT has (10_state.md R30 (vi)). -/
theorem step_of_deviceOpen {s t : State} (h : step s = .next t) (hrst : s.inputs.rst = false) (hrun : s.run = .init)
    (hdev : s.inputs.devOk = false) : t.run = .failed ∧ t.trace = s.trace ++ [.halt 1] ∧ t.disp = 0 := by
  obtain ⟨hv, ho, hcan, -⟩ := edge_next h
  obtain ⟨-, -, -, -, -, hinit⟩ := hcan.resolve_left (by simp [hrst])
  obtain ⟨-, -, hdisp, -⟩ := hinit hrun
  have hstep := h.symm.trans (step_of_edgeCase ⟨hv, ho, hcan⟩ (.init hrst hrun))
  rw [State.startUp, if_neg (by simp [hdev])] at hstep
  cases hstep
  exact ⟨rfl, rfl, hdisp⟩

/-- The INPUT cycle of a frame that does not quit goes on to the DIGIT phase, and its events are the byte taken and the sample. -/
theorem step_enters_digits {s t : State} (h : step s = .next t) (hrst : s.inputs.rst = false) (hs : s.takesInput = true) :
    t.run = .running ∧ t.phase = .digit ∧
      t.trace = s.trace ++
        ((if s.inputs.keyValid = true then [.keyTaken s.inputs.keyByte] else []) ++ [.btnSampled (sampleOf s.inputs)]) := by
  obtain ⟨hin, hq⟩ := (takesInput_iff s).1 hs
  obtain ⟨hrun, -⟩ := (inInput_iff s).1 hin
  rw [step_of_takesInput h hrst hs, takeKey_inputCycle s.beginEdge hq]
  exact ⟨hrun, rfl, rfl⟩

theorem sampleOf_of_failed {i : Inputs} (hb : i.btnValid = false) : sampleOf i = none := if_neg (ne_true_of_eq_false hb)

/-- Settles O50: E1 is the failed device check of INIT; E2 and E4 are INPUT cycles that go on, the one without edges and with `prev` kept,
the other without a command. -/
theorem errorEffects : Obligations.ErrorEffects := by
  refine fun s t h => ⟨fun hmeets => ?deviceOpen, fun hmeets => ?hardwareRead, rfl, fun hmeets => ?invalidInputByte⟩
  case deviceOpen =>
    obtain ⟨hrst, hrun, hdev⟩ := (meets_deviceOpen_iff s).1 hmeets
    obtain ⟨hfailed, htrace, hdisp⟩ := step_of_deviceOpen h hrst hrun hdev
    exact ⟨hfailed, (isHalted_iff t).2 (.inr hfailed), decide_eq_true hfailed, htrace, hdisp⟩
  case hardwareRead =>
    obtain ⟨hrst, hs, hb⟩ := (meets_hardwareRead_iff s).1 hmeets
    obtain ⟨hrun, hphase, htrace⟩ := step_enters_digits h hrst hs
    obtain ⟨hvalue, hprev⟩ := step_frame h hrst hs
    rw [sampleOf_of_failed hb] at htrace
    exact ⟨hrun, hphase, hprev.trans (framePrev_of_failed hb), hvalue.trans (frameValue_of_failed hb), htrace⟩
  case invalidInputByte =>
    obtain ⟨hrst, hin, hvalid, hb⟩ := (meets_invalidInputByte_iff s).1 hmeets
    have hkey : s.key = (.none, false) := (key_of_offer hvalid).trans (keydec_of_not_commandKey hb)
    have hs : s.takesInput = true := (takesInput_iff s).2 ⟨hin, by rw [hkey]⟩
    obtain ⟨hrun, hphase, htrace⟩ := step_enters_digits h hrst hs
    obtain ⟨hvalue, -⟩ := step_frame h hrst hs
    rw [State.frameValue, ← State.key, hkey] at hvalue
    rw [if_pos hvalid] at htrace
    exact ⟨hrun, hphase, hvalue, htrace⟩

end Sys2Proof.Machine
end

section
/-! PROOFS. Reset and the device check (70_reset_and_hazards.md): the row RESET and the reset edge (R143, R144), and the row INIT (R147). -/

namespace Sys2Proof.Machine

/-! ### Reset -/

/-- An edge with `rst = 1` leaves RESET_STATE, whatever the state was (R144). -/
theorem step_reset {s : State} (hv : s.cfg.Valid) (ho : s.offerHeld = true) (hrst : s.inputs.rst = true) :
    step s = .next s.beginEdge.resetRegisters.endEdge :=
  step_of_edgeCase ⟨hv, ho, .inl hrst⟩ (.reset hrst)

/-- RESET_STATE opens no port, sends no word and is not halted (R143). -/
theorem resetRegisters_outputs (s : State) : s.resetRegisters.outputs =
    { keyRdy := false, btnRd := false, dispWord := 0x0000, dispWe := false, halted := false, exitErr := false } := rfl

/-- A byte offered in an INPUT cycle is handed over, at a reset edge too (R144). -/
theorem keyHandshake_of_inInput {s : State} (hin : s.inInput = true) (hvalid : s.inputs.keyValid = true) :
    s.keyHandshake = true := by
  have hrdy : s.outputs.keyRdy = true := hin
  rw [State.keyHandshake, hvalid, hrdy, Bool.and_self]

/-- An edge in an INPUT cycle leaves no byte on offer (20_memory.md R39). -/
theorem untaken_of_inInput {s : State} (hin : s.inInput = true) : s.untaken = none := by
  have hrdy : s.outputs.keyRdy = true := hin
  rw [untaken_eq_ite, if_neg (by simp [hrdy])]

/-- Settles O31: the row and the edge are `resetRegisters`, whose registers are those of RESET_STATE; the handshake is that of any INPUT
cycle. -/
theorem resetInstruction : Obligations.ResetInstruction := by
  refine ⟨exec_reset, fun _ => step_reset, fun s t h hrst => ?outputs, fun s hin hvalid => ?handshake⟩
  case outputs =>
    obtain ⟨hv, ho, -⟩ := edge_next h
    cases h.symm.trans (step_reset hv ho hrst)
    exact resetRegisters_outputs s.beginEdge
  case handshake => exact ⟨keyHandshake_of_inInput hin hvalid, untaken_of_inInput hin⟩

/-! ### The device check -/

theorem startUp_of_devOk {s : State} (h : s.inputs.devOk = true) : s.startUp = { s with run := .running } := if_pos h

theorem startUp_of_not_devOk {s : State} (h : s.inputs.devOk = false) :
    s.startUp = { s with run := .failed, trace := s.trace ++ [.halt 1] } := if_neg (ne_true_of_eq_false h)

/-- Settles O32: INIT fires, and each answer of the device check is one branch of `startUp`; the phase of a state in INIT is INPUT
(10_state.md R30 (iv)), so the frame that follows begins with its INPUT cycle. -/
theorem initInstruction : Obligations.InitInstruction := by
  rintro s ⟨hv, hi⟩ hrun
  have hexec : exec .init s = .next s.startUp := rule_fires hv hi _ (decide_eq_true hrun)
  have hclosed : s.outputs.keyRdy = false := keyRdy_of_not_running (by simp [hrun])
  obtain ⟨-, -, -, hidle, -, -⟩ := hi
  obtain ⟨hphase, -, -⟩ := hidle (by simp [hrun])
  refine ⟨fun hdev => ⟨?running, (inInput_iff _).2 ⟨rfl, hphase⟩⟩, fun hdev => ?failed, hclosed, hclosed⟩
  case running => rw [hexec, startUp_of_devOk hdev]
  case failed => rw [hexec, startUp_of_not_devOk hdev]

end Sys2Proof.Machine
end

section
/-! PROOFS. The decoder as the inverse of the encoder (30_encoding.md): slot by slot for the words an instruction is written in (R51, R61 to
R63, R68), and the cycle rules that a SEQ word selects. -/

namespace Sys2Proof.Machine

/-! ### The halves of a STIM word -/

/-- An offered key beside no good sample is a FRAME line's word. -/
theorem decode_frameKey_key (b : Byte) :
    decode .frameKey (0x00000100 ||| b.zeroExtend 32) = .ok (decodeKey true b) := by
  rw [← BitVec.zero_or (x := (0x00000100 : StimWord) ||| b.zeroExtend 32)]
  exact decode_frameKey_stimWord ⟨some b, none⟩

/-- A good sample beside no key is a FRAME line's word. -/
theorem decode_frameBtn_sample (b : Byte) :
    decode .frameBtn ((0x01000000 : StimWord) ||| (b.zeroExtend 32 <<< 16)) = .ok (.btnSample b) := by
  rw [← BitVec.or_zero (x := (0x01000000 : StimWord) ||| (b.zeroExtend 32 <<< 16))]
  exact decode_frameBtn_stimWord ⟨none, some b⟩

/-! ### The slots that read every word of their width -/

theorem decode_detector (cur : Byte) : decode .detector (cur.zeroExtend 32) = .ok (.detect cur) := by
  rw [decode, if_neg (not_not_intro (zeroExtend_ushiftRight cur (by decide))), zeroExtend_extractLsb' cur (by decide)]

theorem decode_keyDecoder (b : Byte) : decode .keyDecoder (b.zeroExtend 32) = .ok (.keyDecode b) := by
  rw [decode, if_neg (not_not_intro (zeroExtend_ushiftRight b (by decide))), zeroExtend_extractLsb' b (by decide)]

theorem decode_counter (kc : Cmd) : decode .counter ((cmdCode kc).zeroExtend 32) = .ok (.counterUpdate kc) := by
  cases kc <;> rfl

theorem decode_cycle (w : BitVec 6) :
    decode .cycle (w.zeroExtend 32) = .ok (decodeCycle (CycleSelect.ofWord w)) := by
  rw [decode, if_neg (not_not_intro (zeroExtend_ushiftRight w (by decide))), zeroExtend_extractLsb' w (by decide)]

theorem decode_digitWrite (w : BitVec 6) : decode .digitWrite (w.zeroExtend 32) =
    if writesDigit (CycleSelect.ofWord w) = true then .ok .digitWrite else .error .noCommand := by
  rw [decode, if_neg (not_not_intro (zeroExtend_ushiftRight w (by decide))), zeroExtend_extractLsb' w (by decide)]

/-- Settles O1: row by row, each operand through the lemma of its slot; a row without one has a single word to read. -/
theorem decodeInvertsEncode : Obligations.DecodeInvertsEncode := by
  intro i hw
  cases i with
  | keyOther b =>
    have hb : KeyOtherOk b := of_decide_eq_true hw
    exact (decode_frameKey_key b).trans (congrArg Except.ok (decodeKey_of_not_commandKey hb))
  | btnSample b => exact decode_frameBtn_sample b
  | encode d => exact (decode_encoder d).trans (if_pos (digitOk_of_wellFormed hw d rfl))
  | detect cur => exact decode_detector cur
  | counterUpdate kc => exact decode_counter kc
  | keyDecode b => exact decode_keyDecoder b
  | cmdNone => exact decode_command .none
  | cmdInc => exact decode_command .inc
  | cmdDec => exact decode_command .dec
  | cmdRst => exact decode_command .rst
  | keyU => exact decode_frameKey_key 0x75
  | keyD => exact decode_frameKey_key 0x64
  | keyP => exact decode_frameKey_key 0x70
  | keyQ => exact decode_frameKey_key 0x71
  | keyNone => exact decode_frameKey_stimWord ⟨none, none⟩
  | readError => exact decode_frameBtn_stimWord ⟨none, none⟩
  | btnUp | btnDown => rfl
  | reset | init | halted | inputCycle | digitWrite | dwellStep | digitAdvance => rfl

/-- Settles O2: the STIM words are those of FRAME lines, and the other words are read at slots of their own. -/
theorem writtenWordsDecode : Obligations.WrittenWordsDecode :=
  ⟨decode_frameKey_stimWord ⟨some 0x75, some 0x01⟩, decode_frameBtn_stimWord ⟨some 0x75, some 0x01⟩,
    decode_frameKey_stimWord ⟨some 0x78, some 0x02⟩, decode_frameBtn_stimWord ⟨some 0xFF, none⟩,
    decode_command .dec, rfl, decode_cycle 0b001010, decode_digitWrite 0b001110, decode_encoder 9, decode_keyDecoder 0x71⟩

/-! ### Which cycle rule a selector picks -/

/-- The fields of a SEQ word under which a cycle rule is selected (30_encoding.md R51, 44_frame_control.md R123); no other row is a cycle
rule. `decodeCycle_eq_iff` ties it to the decoder. -/
def selectsCycleRule (q : CycleSelect) : Instr → Prop
  | .reset => q.rst = true
  | .init => q.rst = false ∧ q.run = 0b00
  | .halted => q.rst = false ∧ q.run ≠ 0b00 ∧ q.run ≠ 0b01
  | .inputCycle => q.rst = false ∧ q.run = 0b01 ∧ q.phase = false
  | .dwellStep => q.rst = false ∧ q.run = 0b01 ∧ q.phase = true ∧ q.cntLast = false
  | .digitAdvance => q.rst = false ∧ q.run = 0b01 ∧ q.phase = true ∧ q.cntLast = true
  | _ => False

theorem decodeCycle_selects (q : CycleSelect) : selectsCycleRule q (decodeCycle q) := by
  unfold decodeCycle
  split_ifs <;> simp_all [selectsCycleRule]

theorem decodeCycle_eq_iff (q : CycleSelect) (i : Instr) : decodeCycle q = i ↔ selectsCycleRule q i := by
  constructor
  · rintro rfl
    exact decodeCycle_selects q
  · intro h
    cases i with
    | reset | init | halted | inputCycle | dwellStep | digitAdvance => simp_all [selectsCycleRule, decodeCycle]
    | _ => exact h.elim

theorem writesDigit_iff (q : CycleSelect) :
    writesDigit q = true ↔ q.rst = false ∧ q.run = 0b01 ∧ q.phase = true ∧ q.cntFirst = true := by
  simp [writesDigit, and_assoc]

theorem decode_cycle_eq_ok_iff (w : BitVec 6) (i : Instr) :
    decode .cycle (w.zeroExtend 32) = .ok i ↔ selectsCycleRule (CycleSelect.ofWord w) i := by
  rw [decode_cycle, Except.ok.injEq, decodeCycle_eq_iff]

theorem decode_digitWrite_eq_ok_iff (w : BitVec 6) :
    decode .digitWrite (w.zeroExtend 32) = .ok .digitWrite ↔ writesDigit (CycleSelect.ofWord w) = true := by
  rw [decode_digitWrite]
  split <;> simp_all

/-- Settles O4: each slot goes by the fields that `selectsCycleRule` and `writesDigit_iff` name; that they are the fixed bits of the rows
is then a fact about the bits of the 64 words. -/
theorem cycleSelectorRows : Obligations.CycleSelectorRows := by
  intro w
  simp only [decode_cycle_eq_ok_iff, decode_digitWrite_eq_ok_iff, selectsCycleRule, writesDigit_iff]
  revert w
  decide

end Sys2Proof.Machine
end

section
/-! PROOFS. The clock edge as the run of the rows that its SEQ word and its port word decode to (44_frame_control.md R123). -/

namespace Sys2Proof.Machine

/-! ### The words of an edge -/

theorem cycleSelect_ofWord_word (q : CycleSelect) : CycleSelect.ofWord q.word = q := by
  obtain ⟨rst, run, phase, first, last⟩ := q
  revert rst run phase first last
  decide

theorem decode_cycle_selector (q : CycleSelect) : decode .cycle (q.word.zeroExtend 32) = .ok (decodeCycle q) := by
  rw [decode_cycle, cycleSelect_ofWord_word]

theorem decode_digitWrite_selector (q : CycleSelect) : decode .digitWrite (q.word.zeroExtend 32) =
    if writesDigit q = true then .ok .digitWrite else .error .noCommand := by
  rw [decode_digitWrite, cycleSelect_ofWord_word]

/-- The port word of an edge is that of the FRAME line with its key and its sample. -/
theorem stimOfInputs_eq_stimWord (i : Inputs) :
    stimOfInputs i = stimWord ⟨if i.keyValid = true then some i.keyByte else none, sampleOf i⟩ := by
  unfold stimWord stimOfInputs sampleOf
  cases i.keyValid <;> cases i.btnValid <;> simp

/-- The key half of the port word decodes to the key row: a byte that is not offered is read as no key either way. -/
theorem decode_frameKey_ports (s : State) : decode .frameKey (stimOfInputs s.inputs) = .ok s.keyRow := by
  rw [stimOfInputs_eq_stimWord, decode_frameKey_stimWord, State.keyRow]
  cases s.inputs.keyValid <;> rfl

/-! ### The rows of an edge -/

/-- An INPUT cycle writes no digit: the display write needs the other phase. -/
theorem writesDigit_of_inputCycle {q : CycleSelect} (h : decodeCycle q = .inputCycle) : writesDigit q = false := by
  obtain ⟨-, -, hphase⟩ := (decodeCycle_eq_iff q .inputCycle).1 h
  simp [writesDigit, hphase]

/-- The rule that moves the sequencer stands last, after the display write where there is one. -/
theorem fetch_of_decodeCycle {s : State} {i : Instr} (h : decodeCycle s.cycleSelect = i) (hi : i ≠ .inputCycle) :
    s.fetch = if writesDigit s.cycleSelect = true then [.digitWrite, i] else [i] := by
  subst h
  unfold State.fetch
  split
  · exact absurd ‹_› hi
  · rfl

theorem fetch_of_decodeInputCycle {s : State} (h : decodeCycle s.cycleSelect = .inputCycle) : s.fetch = [s.keyRow] := by
  simp [State.fetch, h, writesDigit_of_inputCycle h]

/-! ### The edge around its rows -/

theorem andThen_assoc (o : Result) (f g : State → Result) :
    andThen (andThen o f) g = andThen o fun u => andThen (f u) g := by
  cases o <;> rfl

theorem step_eq_runRules {s : State} (hc : s.CanStep) :
    step s = andThen (runRules s.fetch s.beginEdge) fun t => .next t.endEdge := by
  obtain ⟨hv, ho, hcan⟩ := hc
  rw [step_eq_edge, edge_of_canStep hv ho hcan]

theorem step_of_fetch_one {s : State} {i : Instr} (hc : s.CanStep) (hf : s.fetch = [i]) :
    step s = andThen (exec i s.beginEdge) fun t => .next t.endEdge := by
  rw [step_eq_runRules hc, hf, runRules_singleton]

theorem step_of_fetch_two {s : State} {i j : Instr} (hc : s.CanStep) (hf : s.fetch = [i, j]) :
    step s = andThen (exec i s.beginEdge) fun u => andThen (exec j u) fun t => .next t.endEdge := by
  rw [step_eq_runRules hc, hf, runRules_cons, andThen_assoc]
  simp only [runRules_singleton]

/-- Settles O38: the decoded words give the rows of the edge, and `beginEdge` and `endEdge` are what it does around them. -/
theorem stepRunsTheDecodedRules : Obligations.StepRunsTheDecodedRules := by
  intro s hc
  simp only [decode_cycle_selector, decode_digitWrite_selector, decode_frameKey_ports, Except.ok.injEq]
  refine ⟨fun i hi hne hw => step_of_fetch_one hc ?cycleRule, fun hin i hi => step_of_fetch_one hc ?keyRow,
    fun i hw hi => step_of_fetch_two hc ?withDigit⟩
  case cycleRule =>
    rw [fetch_of_decodeCycle hi hne, if_neg]
    exact fun hd => absurd ((if_pos hd).symm.trans hw) nofun
  case keyRow => rw [fetch_of_decodeInputCycle hin, hi]
  case withDigit =>
    have hd : writesDigit s.cycleSelect = true := by
      by_contra hd
      exact absurd ((if_neg hd).symm.trans hw) nofun
    have hne : i ≠ .inputCycle := by
      rintro rfl
      exact absurd ((writesDigit_of_inputCycle hi).symm.trans hd) nofun
    rw [fetch_of_decodeCycle hi hne, if_pos hd]

end Sys2Proof.Machine
end
